-- ==== Sys2Proof/Word.lean ====
section
/-! DEFINITION. The two word types of the hardware (spec/00_scope.md R9): a byte, and the 32-bit unsigned
argument and length fields of a host request. All values are unsigned. -/

namespace Sys2Proof

/-- A byte (R9). Bit 7 is its most significant bit. -/
abbrev Byte := BitVec 8

/-- A 32-bit unsigned value: `argument`, `responseLen` (R25). -/
abbrev Word := BitVec 32

end Sys2Proof
end

