-- ==== Sys2Proof/Config.lean ====
section
/-! DEFINITION. The implementation parameters of spec/00_scope.md R6 and the free values.
The parameters R6 leaves OPEN (and OP_BYTE, which R88 calls a parameter) are the structure `Params`, a field of
State that no step changes (R8), so that every statement holds for each of their values. The parameters with one
value (kind `source` or `decided` in R6) are constants. DESIGN CHOICE, log entry 10. -/

namespace Sys2Proof.Config

/-- OP_BYTE, R88: the first byte of the password block for each of the five lock operations. -/
structure OpBytes where
  unlock : Byte
  setPassword : Byte
  clearPassword : Byte
  lockNow : Byte
  forceErase : Byte
deriving DecidableEq, Repr

/-- The parameters R6 leaves OPEN. -/
structure Params where
  /-- BUSY_BOUND, R126: `none` is the unbounded wait. -/
  busyBound : Option Nat
  /-- DRT_VIA_POLLER, R148. -/
  drtViaPoller : Bool
  /-- The upper 24 bits of CMD8_ARG; R164 fixes the low byte at 0x1A. -/
  cmd8ArgHi : BitVec 24
  /-- ACMD41_ARG, R167. -/
  acmd41Arg : Word
  /-- ACMD_CHECK_PREFIX, R154. -/
  acmdCheckPrefix : Bool
  /-- OP_BYTE, R88. -/
  opBytes : OpBytes
  /-- RBUF_CAP, R27: `none` is unbounded. -/
  rbufCap : Option Nat
  /-- DBUF_CAP, R27: `none` is unbounded. -/
  dbufCap : Option Nat
deriving DecidableEq, Repr

/-- The OP_BYTE values of R88 (from general knowledge, G5). PRESUMED by the spec, log entry 20. -/
def opBytes : OpBytes := ⟨0x00, 0x01, 0x02, 0x04, 0x08⟩

/-- The default of every OPEN parameter (R6). -/
def defaults : Params where
  busyBound := none
  drtViaPoller := true
  cmd8ArgHi := 0
  acmd41Arg := 0x40000000
  acmdCheckPrefix := false
  opBytes := opBytes
  rbufCap := none
  dbufCap := none

/-- What R6, R27, R126 and R167 require of the parameters: a bound of the busy wait is a positive count,
ACMD41_ARG has the high-capacity-support bit (bit 30, G4), RBUF_CAP >= 5 and DBUF_CAP >= 257. -/
def Params.wf (p : Params) : Bool :=
  (p.busyBound.all fun n => 0 < n) && p.acmd41Arg.getLsbD 30 &&
    (p.rbufCap.all fun n => 5 ≤ n) && (p.dbufCap.all fun n => 257 ≤ n)

/-- CMD8_ARG (R164): the OPEN upper 24 bits over the fixed low byte 0x1A. -/
def Params.cmd8Arg (p : Params) : Word := p.cmd8ArgHi ++ (0x1A : Byte)

/-- MAX_IDLE_POLLS, R6, R7. -/
def maxIdlePolls : Nat := 8
/-- CMD0_RETRIES, R6. -/
def cmd0Retries : Nat := 16
/-- ACMD41_RETRIES, R6. -/
def acmd41Retries : Nat := 1024
/-- CHUNK, R6: no rule depends on it (R146, D2), so nothing reads it. -/
def chunk : Nat := 16
/-- FILL, the byte transmitted while the engine only reads (R54). -/
def fill : Byte := 0xFF
/-- IDLE_BYTE, R79. -/
def idleByte : Byte := 0xFF
/-- BUSY_BYTE, R79. -/
def busyByte : Byte := 0x00
/-- START_TOKEN, R77. -/
def startToken : Byte := 0xFE
/-- DRT_MASK, R78. -/
def drtMask : Byte := 0x1F
/-- DRT_ACCEPT, R78. -/
def drtAccept : Byte := 0x05
/-- DRT_LEN, R148. -/
def drtLen : Nat := 4
/-- CRC7_POLY, R100. PRESUMED by the spec (G1), log entry 20. -/
def crc7Poly : BitVec 7 := 0x09
/-- CRC7_INIT, R100. -/
def crc7Init : BitVec 7 := 0x00
/-- CRC16_POLY, R105. PRESUMED by the spec (G2), log entry 20. -/
def crc16Poly : BitVec 16 := 0x1021
/-- CRC16_INIT, R105. -/
def crc16Init : BitVec 16 := 0x0000
/-- CMD8_ECHO, R165. -/
def cmd8Echo : List Byte := [0x00, 0x00, 0x00, 0x1A]

/-- A FREE VALUE: the `n`-th byte that nothing constrains. It stands for a received byte after the transport's
listed ones (R55, U6; log entry 4) and for the bytes of RESULT that hold no meaning (R24; log entry 9). -/
opaque freeByte : Nat → Byte

end Sys2Proof.Config
end

