-- ==== Sys2Proof/Syntax.lean ====
section
/-! DEFINITION. The syntax: the host's request, the command frame, and `Instr`, one constructor per row of
spec/opcode_table.json. A row is a word that stands in one place of the protocol (a slot, Decode.lean); an
instruction here is that word in its place, with the row's fields as operands. DESIGN CHOICE, log entry 1. -/

namespace Sys2Proof

/-- The host operations, in the order of the REQ_OP codes 0b00 to 0b11 (R92). -/
inductive HostOp where
  | cmd | acmd | init | lockUnlock
deriving DecidableEq, Repr

/-- The lock operations, in the order of the REQ_LOCKOP codes 0 to 4 (R88). -/
inductive LockOp where
  | unlock | setPassword | clearPassword | lockNow | forceErase
deriving DecidableEq, Repr

/-- A request as the host presents it on the host port (R25, R90). `commandId` and `lockOp` are wider than the
values with a meaning, so that the requests R83 and R182 refuse can be presented. DESIGN CHOICE, log entry 14. -/
structure Request where
  op : BitVec 2
  commandId : Byte
  argument : Word
  responseLen : Word
  data : Option (List Byte)
  lockOp : BitVec 3
  oldPassword : List Byte
  newPassword : List Byte
deriving DecidableEq, Repr

/-- The six bytes of a command frame, `b0` transmitted first (R71). -/
structure Frame where
  b0 : Byte
  b1 : Byte
  b2 : Byte
  b3 : Byte
  b4 : Byte
  b5 : Byte
deriving DecidableEq, Repr

/-- One constructor per row of the opcode table. -/
inductive Instr where
  /-- CMD, R71, R135: a command frame with its index, argument and CRC7 field. -/
  | cmd (commandId : BitVec 6) (argument : Word) (crc : BitVec 7)
  /-- CMD0, R162. -/
  | cmd0
  /-- CMD8, R164: the upper 24 bits of the argument, and the CRC7 field. -/
  | cmd8 (argHi : BitVec 24) (crc : BitVec 7)
  /-- CMD58, R166. -/
  | cmd58
  /-- CMD55, R153. -/
  | cmd55
  /-- ACMD41, R167: the argument and the CRC7 field. -/
  | acmd41 (argument : Word) (crc : BitVec 7)
  /-- CMD16, R184: the argument and the CRC7 field. -/
  | cmd16 (argument : Word) (crc : BitVec 7)
  /-- CMD42, R186. -/
  | cmd42
  /-- ACMD13, R187. -/
  | acmd13
  /-- START_TOKEN, R145. -/
  | startToken
  /-- DRT_ACCEPT, R149: bits 7:5 of the token, which nothing examines. -/
  | drtAccept (upper : BitVec 3)
  /-- IDLE_BYTE, R120. -/
  | idleByte
  /-- BUSY_BYTE, R126. -/
  | busyByte
  /-- STATUS, R140: the first non-idle byte of a response. -/
  | status (value : Byte)
  /-- OP_UNLOCK, R181. -/
  | opUnlock
  /-- OP_SETPASSWORD, R181. -/
  | opSetpassword
  /-- OP_CLEARPASSWORD, R181. -/
  | opClearpassword
  /-- OP_LOCKNOW, R181. -/
  | opLocknow
  /-- OP_FORCEERASE, R181. -/
  | opForceerase
  /-- HOST_CMD, R135. -/
  | hostCmd (commandId : Byte) (argument : Word) (responseLen : Word) (data : Option (List Byte))
  /-- HOST_ACMD, R153. -/
  | hostAcmd (commandId : Byte) (argument : Word) (responseLen : Word) (data : Option (List Byte))
  /-- HOST_INIT, R160. -/
  | hostInit
  /-- HOST_LOCKUNLOCK, R180. -/
  | hostLockunlock (operation : BitVec 3) (oldPassword newPassword : List Byte)
deriving DecidableEq, Repr

end Sys2Proof
end

