-- ==== Sys2Proof/Machine/Framer.lean ====
section
/-! DEFINITION. Units 1 to 3 of the engine: the CRC7 generator (R100), the CRC16 generator (R105) and the
command framer (R110). Pure functions with no state (R28). -/

namespace Sys2Proof.Machine

/-- The bits of a byte in the order a CRC generator takes them: bit 7 first (R56). -/
def bitsMsbFirst (b : Byte) : List Bool :=
  [b.getLsbD 7, b.getLsbD 6, b.getLsbD 5, b.getLsbD 4, b.getLsbD 3, b.getLsbD 2, b.getLsbD 1, b.getLsbD 0]

/-- One bit into a CRC register of width `w` with generator `poly`: shift left, and exclusive-or the generator
when the bit shifted out differs from the input bit (the loop bodies of R100 and R105). -/
def crcBit {w : Nat} (poly reg : BitVec w) (bit : Bool) : BitVec w :=
  if reg.msb ^^ bit then (reg <<< 1) ^^^ poly else reg <<< 1

/-- One byte into a CRC register. -/
def crcByte {w : Nat} (poly reg : BitVec w) (b : Byte) : BitVec w :=
  (bitsMsbFirst b).foldl (crcBit poly) reg

/-- The loop of R100 and R105 over a byte sequence, from any start value. -/
def crcRun {w : Nat} (poly reg : BitVec w) (bytes : List Byte) : BitVec w :=
  bytes.foldl (crcByte poly) reg

/-- CRC7, R100. -/
def crc7 (bytes : List Byte) : BitVec 7 := crcRun Config.crc7Poly Config.crc7Init bytes

/-- CRC16, R105. -/
def crc16 (bytes : List Byte) : BitVec 16 := crcRun Config.crc16Poly Config.crc16Init bytes

/-- The first byte of the CRC16 trailer: bits 15:8 (R53). -/
def trailerHigh (c : BitVec 16) : Byte := c.extractLsb' 8 8

/-- The second byte of the CRC16 trailer: bits 7:0 (R53). -/
def trailerLow (c : BitVec 16) : Byte := c.extractLsb' 0 8

/-- The command byte, R72. -/
def commandByte (id : BitVec 6) : Byte := id.zeroExtend 8 ||| 0x40

/-- The CRC byte, R74. -/
def crcField (k : BitVec 7) : Byte := (k.zeroExtend 8 <<< 1) ||| 1

/-- The six bytes of a frame from its three fields (R71 to R74). -/
def assembleFrame (id : BitVec 6) (arg : Word) (k : BitVec 7) : Frame where
  b0 := commandByte id
  b1 := arg.extractLsb' 24 8
  b2 := arg.extractLsb' 16 8
  b3 := arg.extractLsb' 8 8
  b4 := arg.extractLsb' 0 8
  b5 := crcField k

/-- The CRC7 of a frame's first five bytes. -/
def frameCrc (id : BitVec 6) (arg : Word) : BitVec 7 :=
  crc7 [commandByte id, arg.extractLsb' 24 8, arg.extractLsb' 16 8, arg.extractLsb' 8 8, arg.extractLsb' 0 8]

/-- FRAME, R110. -/
def buildFrame (id : BitVec 6) (arg : Word) : Frame := assembleFrame id arg (frameCrc id arg)

end Sys2Proof.Machine
end

