-- ==== Sys2Proof/WellFormed.lean ====
section
/-! DEFINITION. Which instructions are well formed: the frame's CRC field is the CRC7 of its first five bytes
(R111), a status is not the idle byte (R120), and a host request's operands have the values R83, R137 and R182
give a meaning. An ill-formed host request still has an effect (it is refused, R206). -/

namespace Sys2Proof

/-- Whether the data operand of a request is absent or non-empty (R137). -/
def dataPresentable (data : Option (List Byte)) : Bool := data != some []

/-- Well-formedness of an instruction. -/
def Instr.wf : Instr → Bool
  | .cmd id arg k => k == Machine.frameCrc id arg
  | .cmd0 => true
  | .cmd8 hi k => k == Machine.frameCrc 8 (hi ++ (0x1A : Byte))
  | .cmd58 => true
  | .cmd55 => true
  | .acmd41 arg k => k == Machine.frameCrc 41 arg
  | .cmd16 arg k => k == Machine.frameCrc 16 arg
  | .cmd42 => true
  | .acmd13 => true
  | .startToken => true
  | .drtAccept _ => true
  | .idleByte => true
  | .busyByte => true
  | .status b => b != Config.idleByte
  | .opUnlock => true
  | .opSetpassword => true
  | .opClearpassword => true
  | .opLocknow => true
  | .opForceerase => true
  | .hostCmd id _ _ data => decide (id.toNat ≤ 63) && dataPresentable data
  | .hostAcmd id _ _ data => decide (id.toNat ≤ 63) && dataPresentable data
  | .hostInit => true
  | .hostLockunlock op old new => decide (op.toNat ≤ 4) && decide (old.length + new.length ≤ 255)

end Sys2Proof
end

