-- ==== Sys2Proof/Decode.lean ====
section
/-! DEFINITION. The decoder and the encoder. A byte of the table means one thing in one place of the protocol
(0x00 is a busy byte, a status, an operation byte and a REQ_OP code), so the decoder is told the slot the word
stands in. DESIGN CHOICE, log entry 1. -/

namespace Sys2Proof

/-- The places of the protocol an opcode-table row stands in. -/
inductive Slot where
  /-- A request on the host port (R92). -/
  | hostPort
  /-- FRAME_BUF at X_ASSERT; `own` when one of the engine's own sequences issues the frame (R81), else the frame
  is the target command of a host CMD or ACMD and reads as the generic row. -/
  | frame (own : Bool)
  /-- A byte received while polling for a response or a token (R120). -/
  | response
  /-- The first byte of the data-response token (R78). -/
  | token
  /-- A byte received in the busy wait (R126). -/
  | busy
  /-- The byte before a data payload (R77). -/
  | packetStart
  /-- Byte 0 of the password block, under a table of operation bytes (R88). -/
  | opByte (table : Config.OpBytes)
deriving DecidableEq, Repr

/-- The words the decoder reads: a host request has fields and no wire image (R70). -/
inductive Code where
  | request (r : Request)
  | frame (f : Frame)
  | byte (b : Byte)
deriving DecidableEq, Repr

/-- Why the decoder rejects a word. -/
inductive DecodeError where
  /-- The six bytes are not a command frame: R71 fixes bits 7:6 of byte 0 and bit 0 of byte 5. -/
  | notACommandFrame
  /-- The token does not match the accept pattern (R78). -/
  | rejectedToken
  /-- The byte ends the busy wait (R79). -/
  | lineReleased
  /-- The byte is not the start token (R77). -/
  | notAStartToken
  /-- The byte is no operation byte of the table (R88). -/
  | notALockOperation
  /-- A word of this shape does not stand in this slot. -/
  | wrongShape
deriving DecidableEq, Repr

/-- The REQ_OP code, R92. -/
def HostOp.code : HostOp → BitVec 2
  | .cmd => 0b00
  | .acmd => 0b01
  | .init => 0b10
  | .lockUnlock => 0b11

/-- The REQ_LOCKOP code, R88. -/
def LockOp.code : LockOp → BitVec 3
  | .unlock => 0
  | .setPassword => 1
  | .clearPassword => 2
  | .lockNow => 3
  | .forceErase => 4

/-- The operation a REQ_LOCKOP value names; 5, 6 and 7 name none (R83). -/
def LockOp.ofCode (c : BitVec 3) : Option LockOp :=
  match c.toNat with
  | 0 => some .unlock
  | 1 => some .setPassword
  | 2 => some .clearPassword
  | 3 => some .lockNow
  | 4 => some .forceErase
  | _ => none

/-- OP_BYTE(op) under a table of operation bytes, R88. -/
def LockOp.byte (t : Config.OpBytes) : LockOp → Byte
  | .unlock => t.unlock
  | .setPassword => t.setPassword
  | .clearPassword => t.clearPassword
  | .lockNow => t.lockNow
  | .forceErase => t.forceErase

/-- The opcode-table row of a lock operation's byte. -/
def LockOp.instr : LockOp → Instr
  | .unlock => .opUnlock
  | .setPassword => .opSetpassword
  | .clearPassword => .opClearpassword
  | .lockNow => .opLocknow
  | .forceErase => .opForceerase

/-- A host request: all four REQ_OP values are defined (R83). -/
def decodeRequest (r : Request) : Instr :=
  match r.op.toNat with
  | 0 => .hostCmd r.commandId r.argument r.responseLen r.data
  | 1 => .hostAcmd r.commandId r.argument r.responseLen r.data
  | 2 => .hostInit
  | _ => .hostLockunlock r.lockOp r.oldPassword r.newPassword

/-- The fixed bits of a command frame: `01` on top of byte 0, the stop bit 1 at the bottom of byte 5 (R71). -/
def Frame.isCommand (f : Frame) : Bool := f.b0.extractLsb' 6 2 == 0b01 && f.b5.getLsbD 0

/-- The command index of a frame (R111). -/
def Frame.commandId (f : Frame) : BitVec 6 := f.b0.extractLsb' 0 6

/-- The argument of a frame, most significant byte first (R52, R111). -/
def Frame.argument (f : Frame) : Word := f.b1 ++ f.b2 ++ f.b3 ++ f.b4

/-- The CRC7 field of a frame (R74). -/
def Frame.crc (f : Frame) : BitVec 7 := f.b5.extractLsb' 1 7

/-- The bytes of a frame in the order of transmission. -/
def Frame.bytes (f : Frame) : List Byte := [f.b0, f.b1, f.b2, f.b3, f.b4, f.b5]

/-- The generic row of a frame. -/
def Frame.generic (f : Frame) : Instr := .cmd f.commandId f.argument f.crc

/-- The rows of the frames the engine's own sequences issue (R81); any other frame is the generic row. -/
def Frame.own (f : Frame) : Instr :=
  match f.commandId.toNat with
  | 0 => if f = ⟨0x40, 0x00, 0x00, 0x00, 0x00, 0x95⟩ then .cmd0 else f.generic
  | 8 => if f.b4 = 0x1A then .cmd8 (f.b1 ++ f.b2 ++ f.b3) f.crc else f.generic
  | 13 => if f = ⟨0x4D, 0x00, 0x00, 0x00, 0x00, 0x0D⟩ then .acmd13 else f.generic
  | 16 => .cmd16 f.argument f.crc
  | 41 => .acmd41 f.argument f.crc
  | 42 => if f = ⟨0x6A, 0x00, 0x00, 0x00, 0x00, 0x51⟩ then .cmd42 else f.generic
  | 55 => if f = ⟨0x77, 0x00, 0x00, 0x00, 0x00, 0x65⟩ then .cmd55 else f.generic
  | 58 => if f = ⟨0x7A, 0x00, 0x00, 0x00, 0x00, 0xFD⟩ then .cmd58 else f.generic
  | _ => f.generic

/-- A frame, in the slot of the engine's own sequences or of a host's target command. -/
def decodeFrame (own : Bool) (f : Frame) : Except DecodeError Instr :=
  if f.isCommand then .ok (if own then f.own else f.generic) else .error .notACommandFrame

/-- A byte received while polling: only 0xFF is idle (R79); any other value is a status, bit 7 set or not
(R84, D36). -/
def decodeResponse (b : Byte) : Instr := if b = Config.idleByte then .idleByte else .status b

/-- Whether a data-response token is accepted: `(T & 0x1F) = 0x05`, five bits compared (R78, C2). -/
def tokenAccepted (t : Byte) : Bool := t &&& Config.drtMask == Config.drtAccept

/-- The first byte of the data-response token. -/
def decodeToken (t : Byte) : Except DecodeError Instr :=
  if tokenAccepted t then .ok (.drtAccept (t.extractLsb' 5 3)) else .error .rejectedToken

/-- A byte received in the busy wait: only 0x00 is busy (R79). -/
def decodeBusy (b : Byte) : Except DecodeError Instr :=
  if b = Config.busyByte then .ok .busyByte else .error .lineReleased

/-- The lock operation a block's byte 0 stands for under a table of operation bytes. -/
def LockOp.ofByte (t : Config.OpBytes) (b : Byte) : Option LockOp :=
  if b = t.unlock then some .unlock
  else if b = t.setPassword then some .setPassword
  else if b = t.clearPassword then some .clearPassword
  else if b = t.lockNow then some .lockNow
  else if b = t.forceErase then some .forceErase
  else none

/-- Byte 0 of the password block (R80, R88). -/
def decodeOpByte (t : Config.OpBytes) (b : Byte) : Except DecodeError Instr :=
  match LockOp.ofByte t b with
  | some op => .ok op.instr
  | none => .error .notALockOperation

/-- The decoder: total, one slot at a time, rejecting by name. -/
def decode (slot : Slot) (c : Code) : Except DecodeError Instr :=
  match slot, c with
  | .hostPort, .request r => .ok (decodeRequest r)
  | .frame own, .frame f => decodeFrame own f
  | .response, .byte b => .ok (decodeResponse b)
  | .token, .byte b => decodeToken b
  | .busy, .byte b => decodeBusy b
  | .packetStart, .byte b => if b = Config.startToken then .ok .startToken else .error .notAStartToken
  | .opByte t, .byte b => decodeOpByte t b
  | .hostPort, _ => .error .wrongShape
  | .frame _, _ => .error .wrongShape
  | .response, _ => .error .wrongShape
  | .token, _ => .error .wrongShape
  | .busy, _ => .error .wrongShape
  | .packetStart, _ => .error .wrongShape
  | .opByte _, _ => .error .wrongShape

/-- A request with every field the operation does not use at 0, absent or empty (R90). -/
def emptyRequest (op : HostOp) : Request where
  op := op.code
  commandId := 0
  argument := 0
  responseLen := 0
  data := none
  lockOp := 0
  oldPassword := []
  newPassword := []

/-- The slot a row stands in; the operation bytes under R88's own table. -/
def Instr.slot : Instr → Slot
  | .cmd _ _ _ => .frame false
  | .cmd0 => .frame true
  | .cmd8 _ _ => .frame true
  | .cmd58 => .frame true
  | .cmd55 => .frame true
  | .acmd41 _ _ => .frame true
  | .cmd16 _ _ => .frame true
  | .cmd42 => .frame true
  | .acmd13 => .frame true
  | .startToken => .packetStart
  | .drtAccept _ => .token
  | .idleByte => .response
  | .busyByte => .busy
  | .status _ => .response
  | .opUnlock => .opByte Config.opBytes
  | .opSetpassword => .opByte Config.opBytes
  | .opClearpassword => .opByte Config.opBytes
  | .opLocknow => .opByte Config.opBytes
  | .opForceerase => .opByte Config.opBytes
  | .hostCmd _ _ _ _ => .hostPort
  | .hostAcmd _ _ _ _ => .hostPort
  | .hostInit => .hostPort
  | .hostLockunlock _ _ _ => .hostPort

/-- The encoder: the word of an instruction, from the formats of R71, R77 to R80, R88 and R92. The fixed frames
are R81's bytes. -/
def encode : Instr → Code
  | .cmd id arg k => .frame (Machine.assembleFrame id arg k)
  | .cmd0 => .frame ⟨0x40, 0x00, 0x00, 0x00, 0x00, 0x95⟩
  | .cmd8 hi k => .frame (Machine.assembleFrame 8 (hi ++ (0x1A : Byte)) k)
  | .cmd58 => .frame ⟨0x7A, 0x00, 0x00, 0x00, 0x00, 0xFD⟩
  | .cmd55 => .frame ⟨0x77, 0x00, 0x00, 0x00, 0x00, 0x65⟩
  | .acmd41 arg k => .frame (Machine.assembleFrame 41 arg k)
  | .cmd16 arg k => .frame (Machine.assembleFrame 16 arg k)
  | .cmd42 => .frame ⟨0x6A, 0x00, 0x00, 0x00, 0x00, 0x51⟩
  | .acmd13 => .frame ⟨0x4D, 0x00, 0x00, 0x00, 0x00, 0x0D⟩
  | .startToken => .byte 0xFE
  | .drtAccept u => .byte (u ++ (0b00101 : BitVec 5))
  | .idleByte => .byte 0xFF
  | .busyByte => .byte 0x00
  | .status b => .byte b
  | .opUnlock => .byte 0x00
  | .opSetpassword => .byte 0x01
  | .opClearpassword => .byte 0x02
  | .opLocknow => .byte 0x04
  | .opForceerase => .byte 0x08
  | .hostCmd id arg rlen data =>
    .request { emptyRequest .cmd with commandId := id, argument := arg, responseLen := rlen, data := data }
  | .hostAcmd id arg rlen data =>
    .request { emptyRequest .acmd with commandId := id, argument := arg, responseLen := rlen, data := data }
  | .hostInit => .request (emptyRequest .init)
  | .hostLockunlock op old new =>
    .request { emptyRequest .lockUnlock with lockOp := op, oldPassword := old, newPassword := new }

/-- The frame whose bits are `w`, bit 47 the top bit of byte 0 (R71). DEDUCED, log entry 3. -/
def Frame.ofNat (w : Nat) : Frame :=
  ⟨BitVec.ofNat 8 (w / 2 ^ 40), BitVec.ofNat 8 (w / 2 ^ 32), BitVec.ofNat 8 (w / 2 ^ 24),
    BitVec.ofNat 8 (w / 2 ^ 16), BitVec.ofNat 8 (w / 2 ^ 8), BitVec.ofNat 8 w⟩

/-- The bits of a frame as the opcode table numbers them. -/
def Frame.toNat (f : Frame) : Nat :=
  ((((f.b0.toNat * 256 + f.b1.toNat) * 256 + f.b2.toNat) * 256 + f.b3.toNat) * 256 + f.b4.toNat) * 256 + f.b5.toNat

/-- The REQ_OP-only request of a host row's word: its operands are words of zeros. -/
def requestOfNat (w : Nat) : Request := { emptyRequest .cmd with op := BitVec.ofNat 2 w }

/-- The slot in which a word of the table is read when nothing but the word is known: a 48-bit word is a frame of
the engine's own sequences; a byte 0 to 3 is a REQ_OP code, 0x04 and 0x08 are operation bytes, 0xFE the start
token, an accepted token a token, any other byte a response. DESIGN CHOICE, log entry 1. -/
def tableSlot (nbits w : Nat) : Slot :=
  if 8 < nbits then .frame true
  else if w < 4 then .hostPort
  else if w = 0x04 ∨ w = 0x08 then .opByte Config.opBytes
  else if w = 0xFE then .packetStart
  else if tokenAccepted (BitVec.ofNat 8 w) then .token
  else .response

/-- The word itself, in the shape of its slot. -/
def tableCode (nbits w : Nat) : Code :=
  match tableSlot nbits w with
  | .frame _ => .frame (Frame.ofNat w)
  | .hostPort => .request (requestOfNat w)
  | .response => .byte (BitVec.ofNat 8 w)
  | .token => .byte (BitVec.ofNat 8 w)
  | .busy => .byte (BitVec.ofNat 8 w)
  | .packetStart => .byte (BitVec.ofNat 8 w)
  | .opByte _ => .byte (BitVec.ofNat 8 w)

/-- The instruction the decoder reads from a word numbered as the opcode table numbers it. -/
def decodeTableWord (nbits w : Nat) : Option Instr :=
  (decode (tableSlot nbits w) (tableCode nbits w)).toOption

end Sys2Proof
end

