-- ==== Sys2Proof/Machine/State.lean ====
section
/-! DEFINITION. The state of the engine as plain data: every register of spec/10_state.md, the parameters of R6, the
sequencer's continuation (R30), and the two ports with their inputs; and the state after reset (R37). -/

namespace Sys2Proof.Machine

/-- The result kinds, R200. -/
inductive Kind where
  | ok | responseTimeout | dataWriteError | cardInitError | unsupportedCard | cardUnresponsive | refused
  | checksumMismatch
deriving DecidableEq, Repr

/-- INIT_STATE, R21. -/
inductive InitState where
  | reset | idleWait | ifCheck | ocrPoll | ready | failed
deriving DecidableEq, Repr

/-- PHASE: the labels of R30. The index of D_DATA(j) is DPTR. X_RELEASE_ERR carries the kind and info byte of the
raise that led to it (R208). -/
inductive Phase where
  | idle
  | xAssert
  | xTx (i : Fin 6)
  | xPoll
  | xCollect
  | dStart
  | dData
  | dCrc (k : Fin 2)
  | dToken
  | dBusy
  | xRelease
  | xReleaseErr (kind : Kind) (info : Byte)
deriving DecidableEq, Repr

/-- Which exchange of which host operation is in progress: the step index R30 leaves to the model (log entry 13). -/
inductive Seq where
  /-- CMD, R135. -/
  | cmd
  /-- The CMD55 exchange of a host ACMD, R153. -/
  | acmdPrefix
  /-- The target exchange of a host ACMD, R153. -/
  | acmdTarget
  /-- R162. -/
  | initCmd0
  /-- R164. -/
  | initCmd8
  /-- R166. -/
  | initCmd58Pre
  /-- The CMD55 exchange of an ACMD41 iteration, R167. -/
  | initCmd55
  /-- The CMD41 exchange of an ACMD41 iteration, R167. -/
  | initAcmd41
  /-- R169. -/
  | initCmd58Post
  /-- R184. -/
  | lockCmd16
  /-- R186. -/
  | lockCmd42
  /-- The CMD55 exchange of ACMD13, R187. -/
  | lockCmd55
  /-- The CMD13 exchange of ACMD13, R187. -/
  | lockAcmd13
deriving DecidableEq, Repr

/-- A transport event, R10, R11. -/
inductive Event where
  /-- `SetCS(b)`. -/
  | cs (asserted : Bool)
  /-- `Xfer(t) -> r`. -/
  | xfer (t r : Byte)
deriving DecidableEq, Repr

/-- RESULT, R24. -/
structure Result where
  kind : Kind
  status : Byte
  info : Byte
  payload : List Byte
deriving DecidableEq, Repr

/-- Why the host's read of a register answers no value (R23, U11). Raised by `hostRead` alone: no step of the
machine faults. All are safe. -/
inductive Fault where
  /-- OCR_PRE or OCR_POST holds `none` (R23). Raised by `hostRead`; safe: no value is given. -/
  | ocrNotCaptured
  /-- FAIL_KIND or FAIL_INFO is read while INIT_STATE is not S_FAILED (R21, U11). Raised by `hostRead`; safe. -/
  | noFailureHeld
  /-- RESULT is read before the first result (R37, U11). Raised by `hostRead`; safe. -/
  | noResultDelivered
  /-- RESULT is read while an operation is in progress (R34). Raised by `hostRead`; safe. -/
  | operationInProgress
deriving DecidableEq, Repr

/-- Why a step gives no meaning. -/
inductive Refusal where
  /-- An instruction of the table without a meaning in exec. No arm of this model answers it; safe. -/
  | notModelled (mnemonic : String)
  /-- FRAME_BUF holds no command frame at X_ASSERT (R71). Raised by `step`; safe: no state that satisfies the
  model's invariant is refused (log entry 22). -/
  | notACommandFrame
deriving DecidableEq, Repr

/-- The state of the engine. -/
structure State where
  /-- PHASE, R29. -/
  phase : Phase
  /-- CS, R22. -/
  cs : Bool
  /-- INIT_STATE, R21. -/
  initState : InitState
  /-- FAIL_KIND, R21; outside S_FAILED it has no meaning (log entry 17). -/
  failKind : Kind
  /-- FAIL_INFO, R21. -/
  failInfo : Byte
  /-- OCR_PRE, R23: `none` is the spec's "never written". -/
  ocrPre : Option (List Byte)
  /-- OCR_POST, R23. -/
  ocrPost : Option (List Byte)
  /-- RESULT, R24. -/
  result : Result
  /-- Whether a result has been delivered since reset (R37). -/
  resultDelivered : Bool
  /-- REQ_OP, R25. -/
  reqOp : HostOp
  /-- REQ_ID, R25. -/
  reqId : BitVec 6
  /-- REQ_ARG, R25. -/
  reqArg : Word
  /-- REQ_RLEN, R25. -/
  reqRlen : Word
  /-- REQ_HASDATA, R25. -/
  reqHasData : Bool
  /-- REQ_LOCKOP, R25. -/
  reqLockOp : LockOp
  /-- REQ_OLD, R25. -/
  reqOld : List Byte
  /-- REQ_NEW, R25. -/
  reqNew : List Byte
  /-- DBUF, R25. -/
  dbuf : List Byte
  /-- FRAME_BUF, R26. -/
  frameBuf : Frame
  /-- CRC7, R26. -/
  crc7 : BitVec 7
  /-- CRC16, R26. -/
  crc16 : BitVec 16
  /-- IDLE_CNT, R26. -/
  idleCnt : Nat
  /-- RETRY_CNT, R26. -/
  retryCnt : Nat
  /-- BUSY_CNT, R26. -/
  busyCnt : Nat
  /-- STATUS, R26. -/
  status : Byte
  /-- ERROR, R26. -/
  error : Bool
  /-- TOKEN, R26. -/
  token : Byte
  /-- RBUF, R27. -/
  rbuf : List Byte
  /-- RLEFT, R26. -/
  rleft : Nat
  /-- DPTR, R26. -/
  dptr : Nat
  /-- The exchange in progress (R30; the model's own, log entry 13). -/
  seq : Seq
  /-- The `responseLen` operand of the exchange in progress (R135, R76; the model's own, log entry 13). -/
  xRlen : Word
  /-- Whether the exchange in progress has data (R135; the model's own, log entry 13). -/
  xHasData : Bool
  /-- The local `payload` of R135 (the model's own, log entry 13). -/
  payload : List Byte
  /-- The OPEN parameters, R6, R8. -/
  params : Config.Params
  /-- The requests the host will present, oldest first (input, log entry 5). -/
  hostPort : List Request
  /-- The bytes the transport will supply, oldest first (input, log entry 4). -/
  rx : List Byte
  /-- The reset input (R230, log entry 7). -/
  resetPin : Bool
  /-- The transport does not complete a transfer (R31, log entry 11). -/
  stalled : Bool
  /-- The transport events made, oldest first (R11, log entry 12). -/
  trace : List Event
  /-- How many free values have been drawn (the model's own, log entry 4). -/
  fresh : Nat
deriving DecidableEq, Repr

/-- The machine right after reset (R37), no request presented and no byte supplied. The values of the registers R37
leaves unspecified are the model's. DESIGN CHOICE, unsafe, log entry 8. -/
def State.reset : State where
  phase := .idle
  cs := false
  initState := .reset
  failKind := .ok
  failInfo := 0x00
  ocrPre := none
  ocrPost := none
  result := ⟨.ok, 0x00, 0x00, []⟩
  resultDelivered := false
  reqOp := .cmd
  reqId := 0
  reqArg := 0
  reqRlen := 0
  reqHasData := false
  reqLockOp := .unlock
  reqOld := []
  reqNew := []
  dbuf := []
  frameBuf := ⟨0x00, 0x00, 0x00, 0x00, 0x00, 0x00⟩
  crc7 := 0
  crc16 := 0
  idleCnt := 0
  retryCnt := 0
  busyCnt := 0
  status := 0x00
  error := false
  token := 0x00
  rbuf := []
  rleft := 0
  dptr := 0
  seq := .cmd
  xRlen := 0
  xHasData := false
  payload := []
  params := Config.defaults
  hostPort := []
  rx := []
  resetPin := false
  stalled := false
  trace := []
  fresh := 0

end Sys2Proof.Machine
end

