-- ==== Sys2Proof/Machine/Flags.lean ====
section
/-! DEFINITION. The flags and tests the engine computes from a received byte (spec/10_state.md R32, R33 and the
tests of R140, R149, R162, R168), and the status byte's named bits. -/

namespace Sys2Proof.Machine

/-- The flags of a status byte, R32. -/
inductive StatusFlag where
  | parameterError | addressError | eraseSequenceError | crcError | illegalCommand | eraseReset | idleState
deriving DecidableEq, Repr

/-- The bit a status flag stands in (R32; bits 1 to 6 from general knowledge, G3, with no effect on the engine). -/
def StatusFlag.bit : StatusFlag → Nat
  | .parameterError => 6
  | .addressError => 5
  | .eraseSequenceError => 4
  | .crcError => 3
  | .illegalCommand => 2
  | .eraseReset => 1
  | .idleState => 0

/-- A flag of a status byte. -/
def statusFlag (f : StatusFlag) (status : Byte) : Bool := status.getLsbD f.bit

/-- ERROR, R33, R140: `(STATUS & 0xFE) != 0`. -/
def errorOf (status : Byte) : Bool := status &&& 0xFE != 0

/-- CMD0's success, R162: the whole byte is 0x01. -/
def cmd0Succeeded (status : Byte) : Bool := status == 0x01

/-- ACMD41's ready test, R167, R168: bit 0 alone. -/
def acmd41Ready (status : Byte) : Bool := status &&& 0x01 == 0

/-- Whether the data write follows the response, R141. -/
def dataFollows (status : Byte) (hasData : Bool) : Bool := !errorOf status && hasData

/-- The numeric code of a result kind, R200. -/
def Kind.code : Kind → Nat
  | .ok => 0
  | .responseTimeout => 1
  | .dataWriteError => 2
  | .cardInitError => 3
  | .unsupportedCard => 4
  | .cardUnresponsive => 5
  | .refused => 6
  | .checksumMismatch => 7

end Sys2Proof.Machine
end

