-- ==== Sys2Proof/Machine/Operands.lean ====
section
/-! DEFINITION. The operands of the host operations and of the exchanges they are made of: request validation
(R83, R136, R137, R182), the password block (R80), and the index, argument, response length and data of each
exchange (R76, R81). -/

namespace Sys2Proof.Machine

/-- The `commandId` check, R83, R136. -/
def commandIdValid (id : Byte) : Bool := decide (id.toNat ≤ 63)

/-- `n <= cap`, an absent capacity being unbounded (R27). -/
def withinCap (n : Nat) (cap : Option Nat) : Bool := cap.all fun c => n ≤ c

/-- The data operand of CMD and ACMD: absent, or non-empty (R137) and within DBUF_CAP (R136). -/
def dataValid (p : Config.Params) (data : Option (List Byte)) : Bool :=
  data.all fun d => !d.isEmpty && withinCap d.length p.dbufCap

/-- Request validation of CMD and ACMD, R136, R137. -/
def commandValid (p : Config.Params) (id : Byte) (rlen : Word) (data : Option (List Byte)) : Bool :=
  commandIdValid id && withinCap (rlen.toNat + 1) p.rbufCap && dataValid p data

/-- Request validation of LOCKUNLOCK apart from the operation code, R182: the total length fits one byte and the
block fits DBUF. The sum is exact (R12). -/
def passwordsValid (p : Config.Params) (old new : List Byte) : Bool :=
  decide (old.length + new.length ≤ 255) && withinCap (2 + old.length + new.length) p.dbufCap

/-- The password block, R80, R181, R183. -/
def passwordBlock (p : Config.Params) (op : LockOp) (old new : List Byte) : List Byte :=
  op.byte p.opBytes :: BitVec.ofNat 8 (old.length + new.length) :: (old ++ new)

/-- The block length as CMD16's argument, R184. -/
def blockLength (block : List Byte) : Word := BitVec.ofNat 32 block.length

/-- Which host operation an exchange belongs to. -/
def Seq.op : Seq → HostOp
  | .cmd => .cmd
  | .acmdPrefix => .acmd
  | .acmdTarget => .acmd
  | .initCmd0 => .init
  | .initCmd8 => .init
  | .initCmd58Pre => .init
  | .initCmd55 => .init
  | .initAcmd41 => .init
  | .initCmd58Post => .init
  | .lockCmd16 => .lockUnlock
  | .lockCmd42 => .lockUnlock
  | .lockCmd55 => .lockUnlock
  | .lockAcmd13 => .lockUnlock

/-- Whether a frame is one of the engine's own sequences' (R81), or the target command of a host CMD or ACMD. -/
def Seq.own : Seq → Bool
  | .cmd => false
  | .acmdPrefix => true
  | .acmdTarget => false
  | .initCmd0 => true
  | .initCmd8 => true
  | .initCmd58Pre => true
  | .initCmd55 => true
  | .initAcmd41 => true
  | .initCmd58Post => true
  | .lockCmd16 => true
  | .lockCmd42 => true
  | .lockCmd55 => true
  | .lockAcmd13 => true

/-- The command index of an exchange, R81; `host` is REQ_ID. -/
def exchangeId (q : Seq) (host : BitVec 6) : BitVec 6 :=
  match q with
  | .cmd => host
  | .acmdPrefix => 55
  | .acmdTarget => host
  | .initCmd0 => 0
  | .initCmd8 => 8
  | .initCmd58Pre => 58
  | .initCmd55 => 55
  | .initAcmd41 => 41
  | .initCmd58Post => 58
  | .lockCmd16 => 16
  | .lockCmd42 => 42
  | .lockCmd55 => 55
  | .lockAcmd13 => 13

/-- The argument of an exchange, R81; `host` is REQ_ARG and `block` is DBUF. -/
def exchangeArg (q : Seq) (host : Word) (p : Config.Params) (block : List Byte) : Word :=
  match q with
  | .cmd => host
  | .acmdPrefix => 0
  | .acmdTarget => host
  | .initCmd0 => 0
  | .initCmd8 => p.cmd8Arg
  | .initCmd58Pre => 0
  | .initCmd55 => 0
  | .initAcmd41 => p.acmd41Arg
  | .initCmd58Post => 0
  | .lockCmd16 => blockLength block
  | .lockCmd42 => 0
  | .lockCmd55 => 0
  | .lockAcmd13 => 0

end Sys2Proof.Machine
end

