-- ==== Sys2Proof/Machine/Ops.lean ====
section
/-! DEFINITION. The named operations every instruction and sequencer step is made of: `Xfer` and `SetCS` (R10), the
start of an exchange (R110, R135), the response and data phases' entries, the delivery of a result (R24), and
taking an error (R208) with the normal return beside it. -/

namespace Sys2Proof.Machine

/-- The byte the transport supplies in the next transfer: the next listed one, else a free value (R55, U6). -/
def State.rxByte (s : State) : Byte := s.rx.headD (Config.freeByte s.fresh)

/-- The received byte is consumed: no byte can be received twice (R60). -/
def State.consumeRx (s : State) : State :=
  { s with rx := s.rx.tail, fresh := if s.rx = [] then s.fresh + 1 else s.fresh }

/-- The transport event `Xfer(t)` in which `r` was received. -/
def State.xferAs (t r : Byte) (s : State) : State :=
  { s.consumeRx with trace := s.trace ++ [.xfer t r] }

/-- The transport event `Xfer(t)` (R10). -/
def State.xfer (t : Byte) (s : State) : State := s.xferAs t s.rxByte

/-- The transport event `SetCS(b)`; it also writes CS (R10, R22). -/
def State.setCS (b : Bool) (s : State) : State := { s with cs := b, trace := s.trace ++ [.cs b] }

/-- `PHASE <- p`. -/
def State.goto (p : Phase) (s : State) : State := { s with phase := p }

/-- `DPTR <- n`. -/
def State.setDptr (n : Nat) (s : State) : State := { s with dptr := n }

/-- `TOKEN <- t`. -/
def State.setToken (t : Byte) (s : State) : State := { s with token := t }

/-- `RBUF <- bytes; RLEFT <- n` (R121). -/
def State.setReply (bytes : List Byte) (n : Nat) (s : State) : State := { s with rbuf := bytes, rleft := n }

/-- `INIT_STATE <- v`. -/
def State.setInit (v : InitState) (s : State) : State := { s with initState := v }

/-- `RETRY_CNT <- n`. -/
def State.setRetry (n : Nat) (s : State) : State := { s with retryCnt := n }

/-- `IDLE_CNT <- IDLE_CNT + 1` (R120). -/
def State.bumpIdle (s : State) : State := { s with idleCnt := s.idleCnt + 1 }

/-- `BUSY_CNT <- BUSY_CNT + 1` (R126). -/
def State.bumpBusy (s : State) : State := { s with busyCnt := s.busyCnt + 1 }

/-- `OCR_PRE <- p` (R166). -/
def State.captureOcrPre (v : List Byte) (s : State) : State := { s with ocrPre := some v }

/-- `OCR_POST <- p` (R169). -/
def State.captureOcrPost (v : List Byte) (s : State) : State := { s with ocrPost := some v }

/-- The frame of exchange `q` is built (R110) and PHASE is at the exchange's first event (R30). -/
def State.prepare (q : Seq) (s : State) : State :=
  { s with
    frameBuf := buildFrame (exchangeId q s.reqId) (exchangeArg q s.reqArg s.params s.dbuf)
    crc7 := frameCrc (exchangeId q s.reqId) (exchangeArg q s.reqArg s.params s.dbuf)
    seq := q
    phase := .xAssert }

/-- The exchange of a frame begins (R135): its operands, `SetCS(1)`, and the first frame byte is next (R30). -/
def State.beginExchange (f : Frame) (rlen : Word) (hasData : Bool) (s : State) : State :=
  { s.setCS true with frameBuf := f, xRlen := rlen, xHasData := hasData, phase := .xTx 0 }

/-- READRESP's start: `IDLE_CNT <- 0; RBUF <- []` (R120). -/
def State.beginPoll (p : Phase) (s : State) : State := { s with idleCnt := 0, rbuf := [], phase := p }

/-- The whole response is read (R139 to R141): STATUS, the payload, ERROR, and the data condition. -/
def State.responseDone (resp : List Byte) (s : State) : State :=
  { s with
    status := resp.headD s.status
    payload := resp.tail
    error := errorOf (resp.headD s.status)
    phase := if dataFollows (resp.headD s.status) s.xHasData then .dStart else .xRelease }

/-- The payload is sent: `c <- CRC16(data)`, and the trailer is next (R144, R147). -/
def State.beginTrailer (s : State) : State := { s with crc16 := Machine.crc16 s.dbuf, phase := .dCrc 0 }

/-- PHASE after the payload byte before `DPTR` (R146). -/
def State.afterPayloadByte (s : State) : State :=
  if s.dptr < s.dbuf.length then s.goto .dData else s.beginTrailer

/-- WAITBUSY's start (R126), after an accepted token (R150). -/
def State.beginBusy (s : State) : State := { s with busyCnt := 0, phase := .dBusy }

/-- RESULT is delivered and PHASE is IDLE (R241). -/
def State.deliver (r : Result) (s : State) : State :=
  { s with result := r, resultDelivered := true, phase := .idle }

/-- The next free value is used up. -/
def State.drawn (s : State) : State := { s with fresh := s.fresh + 1 }

/-- The normal return of CMD, ACMD and LOCKUNLOCK (R143, R188). `info` holds no meaning (R24): a free value, log
entry 9. -/
def State.deliverOk (status : Byte) (payload : List Byte) (s : State) : State :=
  (s.deliver ⟨.ok, status, Config.freeByte s.fresh, payload⟩).drawn

/-- The normal return of INIT (R170): `status` and `info` hold no meaning (free values, log entry 9); the payload is
empty (R24; log entry 26). -/
def State.deliverInitOk (s : State) : State :=
  (s.deliver ⟨.ok, Config.freeByte s.fresh, Config.freeByte (s.fresh + 1), []⟩).drawn.drawn

/-- A refused request (R206): only RESULT is written; the payload is empty (R24), and `status` and `info` hold no
meaning (R24, R201; free values, log entry 9). -/
def State.refuse (s : State) : State :=
  (s.deliver ⟨.refused, Config.freeByte s.fresh, Config.freeByte (s.fresh + 1), []⟩).drawn.drawn

/-- INIT's failure record, R171, R208 (2). -/
def State.recordInitFailure (k : Kind) (info : Byte) (s : State) : State :=
  if s.reqOp = .init then { s with initState := .failed, failKind := k, failInfo := info } else s

/-- Taking an error once chip-select is released: R208 (2) to (4). `status` holds no meaning (a free value, log
entry 9); the payload is empty (R24, R201; log entry 26). -/
def State.endWithError (k : Kind) (info : Byte) (s : State) : State :=
  ((s.recordInitFailure k info).deliver ⟨k, Config.freeByte s.fresh, info, []⟩).drawn

/-- `raise K(info)`, R208: chip-select, if asserted, is released by the next event (X_RELEASE_ERR, R30) and the rest
follows it; otherwise the operation ends here. -/
def State.raise (k : Kind) (info : Byte) (s : State) : State :=
  if s.cs then s.goto (.xReleaseErr k info) else s.endWithError k info

/-- One more idle byte (R120): at MAX_IDLE_POLLS the poll is a Timeout, which the caller raises as ResponseTimeout
with info 0xFF (R138, R148). -/
def State.countIdle (s : State) : State :=
  if s.idleCnt + 1 = Config.maxIdlePolls then s.bumpIdle.raise .responseTimeout 0xFF else s.bumpIdle

/-- One more busy byte (R126): counted only when BUSY_BOUND is a count. -/
def State.countBusy (s : State) : State :=
  match s.params.busyBound with
  | none => s
  | some n => if s.busyCnt + 1 = n then s.bumpBusy.raise .cardUnresponsive 0x00 else s.bumpBusy

/-- The request at the head of the host port is taken (R241). -/
def State.takeRequest (s : State) : State := { s with hostPort := s.hostPort.tail }

/-- Latching a CMD or ACMD request (R25); absent data leaves DBUF (log entry 19). -/
def State.latchCommand (op : HostOp) (id : Byte) (arg rlen : Word) (data : Option (List Byte)) (s : State) : State :=
  { s with
    reqOp := op
    reqId := id.truncate 6
    reqArg := arg
    reqRlen := rlen
    reqHasData := data.isSome
    dbuf := data.getD s.dbuf }

/-- Latching a LOCKUNLOCK request and assembling its block (R25, R180 step 1). -/
def State.latchLock (op : LockOp) (old new : List Byte) (s : State) : State :=
  { s with
    reqOp := .lockUnlock
    reqLockOp := op
    reqOld := old
    reqNew := new
    dbuf := passwordBlock s.params op old new }

/-- INIT's entry, R160, R161. -/
def State.enterInit (s : State) : State :=
  { s with reqOp := .init, initState := .reset, ocrPre := none, ocrPost := none, retryCnt := 0 }

/-- Reset, from any state (R230, R231): every register at its value of R37; if chip-select was asserted the
transport sees it released. The parameters keep their values (R8), the inputs of the two ports stay, and the reset
input has been taken. -/
def State.hardReset (s : State) : State :=
  { State.reset with
    params := s.params
    hostPort := s.hostPort
    rx := s.rx
    stalled := s.stalled
    trace := if s.cs then s.trace ++ [.cs false] else s.trace
    fresh := s.fresh }

end Sys2Proof.Machine
end

