-- ==== Sys2Proof/Machine/Frames.lean ====
section
/-! DEFINITION. The command-frame rows: each begins the exchange of its frame, with the row's response length (R76)
and data. The six transmissions, the poll, the response and the data phase are the sequencer's following steps
(R31, log entry 2). -/

namespace Sys2Proof.Machine

/-- CMD, R135: the frame of a host CMD, or of the target command of a host ACMD; its response length and data are
the request's. -/
def execCmd (id : BitVec 6) (arg : Word) (k : BitVec 7) (s : State) : Host.Outcome State Fault Refusal :=
  .next (s.beginExchange (assembleFrame id arg k) s.reqRlen s.reqHasData)

/-- CMD0, R162. -/
def execCmd0 (s : State) : Host.Outcome State Fault Refusal :=
  .next (s.beginExchange (buildFrame 0 0) 0 false)

/-- CMD8, R164: 4 reply bytes. -/
def execCmd8 (hi : BitVec 24) (k : BitVec 7) (s : State) : Host.Outcome State Fault Refusal :=
  .next (s.beginExchange (assembleFrame 8 (hi ++ (0x1A : Byte)) k) 4 false)

/-- CMD58, R166, R169: 4 reply bytes. -/
def execCmd58 (s : State) : Host.Outcome State Fault Refusal :=
  .next (s.beginExchange (buildFrame 58 0) 4 false)

/-- CMD55, R153. -/
def execCmd55 (s : State) : Host.Outcome State Fault Refusal :=
  .next (s.beginExchange (buildFrame 55 0) 0 false)

/-- ACMD41, R167. -/
def execAcmd41 (arg : Word) (k : BitVec 7) (s : State) : Host.Outcome State Fault Refusal :=
  .next (s.beginExchange (assembleFrame 41 arg k) 0 false)

/-- CMD16, R184. -/
def execCmd16 (arg : Word) (k : BitVec 7) (s : State) : Host.Outcome State Fault Refusal :=
  .next (s.beginExchange (assembleFrame 16 arg k) 0 false)

/-- CMD42, R186: the data is DBUF, the password block. -/
def execCmd42 (s : State) : Host.Outcome State Fault Refusal :=
  .next (s.beginExchange (buildFrame 42 0) 0 true)

/-- ACMD13, R187: 1 reply byte. -/
def execAcmd13 (s : State) : Host.Outcome State Fault Refusal :=
  .next (s.beginExchange (buildFrame 13 0) 1 false)

end Sys2Proof.Machine
end

