-- ==== Sys2Proof/Machine/Response.lean ====
section
/-! DEFINITION. The rows of the bytes received from the card: IDLE_BYTE (R120), STATUS (R120, R140), DRT_ACCEPT (R149)
and BUSY_BYTE (R126). Each is one `Xfer` of FILL (R54). -/

namespace Sys2Proof.Machine

/-- IDLE_BYTE, R120: an idle byte received while polling, for a response or for the token. -/
def execIdleByte (s : State) : Host.Outcome State Fault Refusal :=
  .next (s.xferAs Config.fill Config.idleByte).countIdle

/-- The first byte of a response is kept, and `responseLen` bytes are left to collect (R120, R121); with none left
the response is complete. -/
def State.statusReceived (b : Byte) (s : State) : State :=
  if s.xRlen.toNat = 0 then ((s.xferAs Config.fill b).setReply [b] 0).responseDone [b]
  else ((s.xferAs Config.fill b).setReply [b] s.xRlen.toNat).goto .xCollect

/-- STATUS, R120, R121, R140. -/
def execStatus (b : Byte) (s : State) : Host.Outcome State Fault Refusal := .next (s.statusReceived b)

/-- The fourth token byte is received and the first, in TOKEN, is an accepted one: the busy wait begins (R148 to
R150). -/
def State.tokenAccept (upper : BitVec 3) (s : State) : State :=
  (((s.xfer Config.fill).setReply (s.rbuf ++ [s.rxByte]) 0).setToken (upper ++ (0b00101 : BitVec 5))).beginBusy

/-- DRT_ACCEPT, R148 to R150: the token is examined when its four bytes are read (log entry 16). -/
def execDrtAccept (upper : BitVec 3) (s : State) : Host.Outcome State Fault Refusal := .next (s.tokenAccept upper)

/-- BUSY_BYTE, R126. -/
def execBusyByte (s : State) : Host.Outcome State Fault Refusal :=
  .next (s.xferAs Config.fill Config.busyByte).countBusy

end Sys2Proof.Machine
end

