-- ==== Sys2Proof/Machine/DataPacket.lean ====
section
/-! DEFINITION. The rows of the data packet: START_TOKEN (R145) and byte 0 of the password block (R181). -/

namespace Sys2Proof.Machine

/-- START_TOKEN, R145: one transfer, and the payload is next with DPTR at 0 (R146). -/
def execStartToken (s : State) : Host.Outcome State Fault Refusal :=
  .next ((s.xfer Config.startToken).setDptr 0).afterPayloadByte

/-- `DBUF[0] <- b`. -/
def State.setBlockByte (b : Byte) (s : State) : State := { s with dbuf := b :: s.dbuf.tail }

/-- Byte 0 of the password block (R80, R181): `DBUF[0] <- OP_BYTE(op)`, transmitted as payload byte 0 (R146;
log entry 15). -/
def State.sendOpByte (op : LockOp) (s : State) : State :=
  (((s.setBlockByte (op.byte s.params.opBytes)).xfer (op.byte s.params.opBytes)).setDptr 1).afterPayloadByte

/-- OP_UNLOCK, R181. -/
def execOpUnlock (s : State) : Host.Outcome State Fault Refusal := .next (s.sendOpByte .unlock)

/-- OP_SETPASSWORD, R181. -/
def execOpSetpassword (s : State) : Host.Outcome State Fault Refusal := .next (s.sendOpByte .setPassword)

/-- OP_CLEARPASSWORD, R181. -/
def execOpClearpassword (s : State) : Host.Outcome State Fault Refusal := .next (s.sendOpByte .clearPassword)

/-- OP_LOCKNOW, R181. -/
def execOpLocknow (s : State) : Host.Outcome State Fault Refusal := .next (s.sendOpByte .lockNow)

/-- OP_FORCEERASE, R181: the same block layout as the others (D26). -/
def execOpForceerase (s : State) : Host.Outcome State Fault Refusal := .next (s.sendOpByte .forceErase)

end Sys2Proof.Machine
end

