-- ==== Sys2Proof/Machine/HostRequests.lean ====
section
/-! DEFINITION. The host operations' rows: what the engine does with a request at IDLE. A request is validated
before any event (R136, R182), refused (R206) or latched (R25), and its first frame is built. -/

namespace Sys2Proof.Machine

/-- A CMD or ACMD request: refused, or latched with the first exchange `q` next. -/
def State.acceptCommand (op : HostOp) (q : Seq) (id : Byte) (arg rlen : Word) (data : Option (List Byte))
    (s : State) : State :=
  if commandValid s.params id rlen data then (s.takeRequest.latchCommand op id arg rlen data).prepare q
  else s.takeRequest.refuse

/-- HOST_CMD, R135 to R137. -/
def execHostCmd (id : Byte) (arg rlen : Word) (data : Option (List Byte)) (s : State) :
    Host.Outcome State Fault Refusal :=
  .next (s.acceptCommand .cmd .cmd id arg rlen data)

/-- HOST_ACMD, R153: the CMD55 exchange comes first. -/
def execHostAcmd (id : Byte) (arg rlen : Word) (data : Option (List Byte)) (s : State) :
    Host.Outcome State Fault Refusal :=
  .next (s.acceptCommand .acmd .acmdPrefix id arg rlen data)

/-- HOST_INIT, R160, R161: in any INIT_STATE, always from CMD0. -/
def execHostInit (s : State) : Host.Outcome State Fault Refusal :=
  .next (s.takeRequest.enterInit.prepare .initCmd0)

/-- HOST_LOCKUNLOCK, R180 to R184: the block is assembled and CMD16 is next. -/
def execHostLockunlock (op : BitVec 3) (old new : List Byte) (s : State) : Host.Outcome State Fault Refusal :=
  match LockOp.ofCode op with
  | none => .next s.takeRequest.refuse
  | some o =>
    if passwordsValid s.params old new then .next ((s.takeRequest.latchLock o old new).prepare .lockCmd16)
    else .next s.takeRequest.refuse

/-- The host-visible registers, R34. -/
inductive HostReg where
  | initState | failKind | failInfo | ocrPre | ocrPost | result | ready | parameters
deriving DecidableEq, Repr

/-- What a read of a host-visible register answers. -/
inductive HostValue where
  | initState (v : InitState)
  | kind (v : Kind)
  | byte (v : Byte)
  | bytes (v : List Byte)
  | result (v : Result)
  | ready (v : Bool)
  | parameters (v : Config.Params)
deriving DecidableEq, Repr

/-- A captured OCR register's read (R23): `none` answers no value. -/
def readOcr : Option (List Byte) → Except Fault HostValue
  | none => .error .ocrNotCaptured
  | some v => .ok (.bytes v)

/-- The host's read of a register (R34; log entry 25). -/
def hostRead (r : HostReg) (s : State) : Except Fault HostValue :=
  match r with
  | .initState => .ok (.initState s.initState)
  | .failKind => if s.initState = .failed then .ok (.kind s.failKind) else .error .noFailureHeld
  | .failInfo => if s.initState = .failed then .ok (.byte s.failInfo) else .error .noFailureHeld
  | .ocrPre => readOcr s.ocrPre
  | .ocrPost => readOcr s.ocrPost
  | .result =>
    if s.phase = .idle then
      if s.resultDelivered then .ok (.result s.result) else .error .noResultDelivered
    else .error .operationInProgress
  | .ready => .ok (.ready (decide (s.phase = .idle)))
  | .parameters => .ok (.parameters s.params)

end Sys2Proof.Machine
end

