-- ==== Sys2Proof/Machine/Dispatch.lean ====
section
/-! DEFINITION. One arm per row of the opcode table. -/

namespace Sys2Proof.Machine

def exec (i : Instr) (s : State) : Host.Outcome State Fault Refusal :=
  match i with
  | .cmd id arg k => Sys2Proof.Machine.execCmd id arg k s
  | .cmd0 => Sys2Proof.Machine.execCmd0 s
  | .cmd8 hi k => Sys2Proof.Machine.execCmd8 hi k s
  | .cmd58 => Sys2Proof.Machine.execCmd58 s
  | .cmd55 => Sys2Proof.Machine.execCmd55 s
  | .acmd41 arg k => Sys2Proof.Machine.execAcmd41 arg k s
  | .cmd16 arg k => Sys2Proof.Machine.execCmd16 arg k s
  | .cmd42 => Sys2Proof.Machine.execCmd42 s
  | .acmd13 => Sys2Proof.Machine.execAcmd13 s
  | .startToken => Sys2Proof.Machine.execStartToken s
  | .drtAccept upper => Sys2Proof.Machine.execDrtAccept upper s
  | .idleByte => Sys2Proof.Machine.execIdleByte s
  | .busyByte => Sys2Proof.Machine.execBusyByte s
  | .status b => Sys2Proof.Machine.execStatus b s
  | .opUnlock => Sys2Proof.Machine.execOpUnlock s
  | .opSetpassword => Sys2Proof.Machine.execOpSetpassword s
  | .opClearpassword => Sys2Proof.Machine.execOpClearpassword s
  | .opLocknow => Sys2Proof.Machine.execOpLocknow s
  | .opForceerase => Sys2Proof.Machine.execOpForceerase s
  | .hostCmd id arg rlen data => Sys2Proof.Machine.execHostCmd id arg rlen data s
  | .hostAcmd id arg rlen data => Sys2Proof.Machine.execHostAcmd id arg rlen data s
  | .hostInit => Sys2Proof.Machine.execHostInit s
  | .hostLockunlock op old new => Sys2Proof.Machine.execHostLockunlock op old new s

end Sys2Proof.Machine
end

