-- ==== Sys2Proof/Machine/Sequencer.lean ====
section
/-! DEFINITION. The sequencer: the transport events that no row of the opcode table selects (R30), and what follows
an exchange in the host operation it belongs to (R135, R153, R160, R180). -/

namespace Sys2Proof.Machine

/-- The byte of a frame at index `i` (R71). -/
def frameByte (f : Frame) (i : Fin 6) : Byte :=
  match i with
  | 0 => f.b0
  | 1 => f.b1
  | 2 => f.b2
  | 3 => f.b3
  | 4 => f.b4
  | 5 => f.b5

/-- X_TX(i): `Xfer(FRAME_BUF[i])`, the received byte discarded (R135); after the last, READRESP (R30). -/
def txStep (i : Fin 6) (s : State) : State :=
  if h : i.val + 1 < 6 then (s.xfer (frameByte s.frameBuf i)).goto (.xTx ⟨i.val + 1, h⟩)
  else (s.xfer (frameByte s.frameBuf i)).beginPoll .xPoll

/-- The next byte of a READRESP in its collect phase (R121). -/
def State.collectByte (s : State) : State :=
  (s.xfer Config.fill).setReply (s.rbuf ++ [s.rxByte]) (s.rleft - 1)

/-- X_COLLECT (R121): every value is kept; after the last, the response is complete. -/
def collectStep (s : State) : State :=
  if s.rleft ≤ 1 then s.collectByte.responseDone (s.rbuf ++ [s.rxByte]) else s.collectByte

/-- D_DATA: `Xfer(DBUF[DPTR])`, the received byte discarded (R146); after the last, the trailer. With DPTR past the
end, which no run reaches, the trailer is next at once (log entry 23). -/
def dataStep (s : State) : State :=
  match s.dbuf[s.dptr]? with
  | some b => ((s.xfer b).setDptr (s.dptr + 1)).afterPayloadByte
  | none => s.beginTrailer

/-- D_CRC(k): the trailer's high, then its low byte (R147); after the low one, the token read begins (R148). Through
the poller it begins as every READRESP does (R120). Raw, no READRESP is called and the spec gives IDLE_CNT and RBUF no
value: the model clears both there too. DESIGN CHOICE, log entry 13. -/
def crcStep (k : Fin 2) (s : State) : State :=
  match k with
  | 0 => (s.xfer (trailerHigh s.crc16)).goto (.dCrc 1)
  | 1 => (s.xfer (trailerLow s.crc16)).beginPoll .dToken

/-- D_TOKEN, a byte other than a counted idle one (R148): the first is kept as the token, three more complete the
four; then TOKEN is written and, the token not being an accepted one, DataWriteError(TOKEN) is raised (R149). An
accepted one is the row DRT_ACCEPT. -/
def tokenStep (s : State) : State :=
  match s.rbuf with
  | [] => (s.xfer Config.fill).setReply [s.rxByte] (Config.drtLen - 1)
  | t :: _ =>
    if s.rleft ≤ 1 then (s.collectByte.setToken t).raise .dataWriteError t
    else s.collectByte

/-- D_BUSY, a non-zero byte: the card released the line, the byte is discarded (R126). -/
def busyEndStep (s : State) : State := (s.xfer Config.fill).goto .xRelease

/-- Whether an application command ends at its CMD55 exchange (R153, R154). -/
def State.prefixRejected (s : State) : Bool := s.params.acmdCheckPrefix && errorOf s.status

/-- INIT's loop over CMD0, after an attempt (R162). S_IDLEWAIT is entered and left at once, inside the step (R163, log
entry 24). -/
def State.afterCmd0 (s : State) : State :=
  if cmd0Succeeded s.status then
    (((s.setRetry (s.retryCnt + 1)).setInit .idleWait).setInit .ifCheck).prepare .initCmd8
  else if s.retryCnt + 1 = Config.cmd0Retries then (s.setRetry (s.retryCnt + 1)).raise .cardInitError s.status
  else (s.setRetry (s.retryCnt + 1)).prepare .initCmd0

/-- INIT's interface check, after CMD8 (R165). -/
def State.afterCmd8 (s : State) : State :=
  if s.payload = Config.cmd8Echo then (s.setInit .ocrPoll).prepare .initCmd58Pre
  else s.raise .unsupportedCard s.status

/-- INIT's loop over ACMD41, after an iteration (R167, R168). -/
def State.afterAcmd41 (s : State) : State :=
  if acmd41Ready s.status then (s.setRetry (s.retryCnt + 1)).prepare .initCmd58Post
  else if s.retryCnt + 1 = Config.acmd41Retries then (s.setRetry (s.retryCnt + 1)).raise .cardInitError s.status
  else (s.setRetry (s.retryCnt + 1)).prepare .initCmd55

/-- What follows an exchange that ended normally, chip-select released (R30). -/
def State.continueAfter (s : State) : State :=
  match s.seq with
  | .cmd => s.deliverOk s.status s.payload
  | .acmdPrefix => if s.prefixRejected then s.deliverOk s.status [] else s.prepare .acmdTarget
  | .acmdTarget => s.deliverOk s.status s.payload
  | .initCmd0 => s.afterCmd0
  | .initCmd8 => s.afterCmd8
  | .initCmd58Pre => ((s.captureOcrPre s.payload).setRetry 0).prepare .initCmd55
  | .initCmd55 => if s.prefixRejected then s.afterAcmd41 else s.prepare .initAcmd41
  | .initAcmd41 => s.afterAcmd41
  | .initCmd58Post => ((s.captureOcrPost s.payload).setInit .ready).deliverInitOk
  | .lockCmd16 => if errorOf s.status then s.deliverOk s.status [] else s.prepare .lockCmd42
  | .lockCmd42 => s.prepare .lockCmd55
  | .lockCmd55 => if s.prefixRejected then s.deliverOk s.status [] else s.prepare .lockAcmd13
  | .lockAcmd13 => s.deliverOk s.status []

/-- X_RELEASE: `SetCS(0)`, then the caller's continuation (R30). -/
def releaseStep (s : State) : State := (s.setCS false).continueAfter

/-- X_RELEASE_ERR: `SetCS(0)`, then the rest of the raise (R208). -/
def releaseErrStep (k : Kind) (info : Byte) (s : State) : State := (s.setCS false).endWithError k info

/-- What the sequencer does in a step that no instruction of the table selects. At IDLE with no request it waits;
the phases X_ASSERT, X_POLL and D_START are always selected by an instruction. -/
def sequence (s : State) : State :=
  match s.phase with
  | .idle => s
  | .xAssert => s
  | .xTx i => txStep i s
  | .xPoll => s
  | .xCollect => collectStep s
  | .dStart => s
  | .dData => dataStep s
  | .dCrc k => crcStep k s
  | .dToken => tokenStep s
  | .dBusy => busyEndStep s
  | .xRelease => releaseStep s
  | .xReleaseErr k info => releaseErrStep k info s

end Sys2Proof.Machine
end

