-- ==== Sys2Proof/Machine/Fetch.lean ====
section
/-! DEFINITION. Which instruction of the table, if any, selects the engine's next step: the word that stands in the
slot of the current phase is decoded (log entry 1); and where a word of the table is placed so that the next step
runs it (log entry 6). -/

namespace Sys2Proof.Machine

/-- What selects the next step. -/
inductive Fetched where
  /-- A row of the opcode table. -/
  | instr (i : Instr)
  /-- The sequencer alone: no row stands for this step. -/
  | sequencer
  /-- FRAME_BUF holds no command frame. -/
  | badFrame
deriving DecidableEq, Repr

/-- A word that is a row's, else a step of the sequencer alone. -/
def fetchedOr (d : Except DecodeError Instr) : Fetched :=
  match d with
  | .ok i => .instr i
  | .error _ => .sequencer

/-- Whether the next byte of the token read is counted as idle (R148): only through the poller, before the first
non-idle byte. -/
def State.tokenIdle (s : State) : Bool :=
  s.params.drtViaPoller && s.rbuf.isEmpty && s.rxByte == Config.idleByte

/-- The next step's instruction, phase by phase. -/
def fetch (s : State) : Fetched :=
  match s.phase with
  | .idle =>
    match s.hostPort with
    | [] => .sequencer
    | r :: _ => fetchedOr (decode .hostPort (.request r))
  | .xAssert =>
    match decode (.frame s.seq.own) (.frame s.frameBuf) with
    | .ok i => .instr i
    | .error _ => .badFrame
  | .xTx _ => .sequencer
  | .xPoll => fetchedOr (decode .response (.byte s.rxByte))
  | .xCollect => .sequencer
  | .dStart => fetchedOr (decode .packetStart (.byte Config.startToken))
  | .dData =>
    if s.seq = .lockCmd42 ∧ s.dptr = 0 then
      match s.dbuf with
      | [] => .sequencer
      | b :: _ => fetchedOr (decode (.opByte s.params.opBytes) (.byte b))
    else .sequencer
  | .dCrc _ => .sequencer
  | .dToken =>
    if s.tokenIdle then .instr .idleByte
    else
      match s.rbuf with
      | [] => .sequencer
      | t :: _ => if s.rleft ≤ 1 then fetchedOr (decode .token (.byte t)) else .sequencer
  | .dBusy => fetchedOr (decode .busy (.byte s.rxByte))
  | .xRelease => .sequencer
  | .xReleaseErr _ _ => .sequencer

/-- Whether the next event of a phase is an `Xfer` (R30). -/
def Phase.transfers : Phase → Bool
  | .idle => false
  | .xAssert => false
  | .xTx _ => true
  | .xPoll => true
  | .xCollect => true
  | .dStart => true
  | .dData => true
  | .dCrc _ => true
  | .dToken => true
  | .dBusy => true
  | .xRelease => false
  | .xReleaseErr _ _ => false

/-- Whether a phase lies between an exchange's `SetCS(1)` and its `SetCS(0)` (R142). -/
def Phase.selected : Phase → Bool
  | .idle => false
  | .xAssert => false
  | .xTx _ => true
  | .xPoll => true
  | .xCollect => true
  | .dStart => true
  | .dData => true
  | .dCrc _ => true
  | .dToken => true
  | .dBusy => true
  | .xRelease => true
  | .xReleaseErr _ _ => true

/-- Whether the step in `phase` waits for the transport to complete a transfer (R31). -/
def State.waiting (s : State) : Bool := s.stalled && s.phase.transfers

/-- The exchange a row belongs to (R81): the first one, where several issue the same frame. Only the frame rows'
values are used. -/
def issuer : Instr → Seq
  | .cmd0 => .initCmd0
  | .cmd8 _ _ => .initCmd8
  | .cmd58 => .initCmd58Pre
  | .cmd55 => .acmdPrefix
  | .acmd41 _ _ => .initAcmd41
  | .cmd16 _ _ => .lockCmd16
  | .cmd42 => .lockCmd42
  | .acmd13 => .lockAcmd13
  | .cmd _ _ _ => .cmd
  | .startToken => .cmd
  | .drtAccept _ => .cmd
  | .idleByte => .cmd
  | .busyByte => .cmd
  | .status _ => .cmd
  | .opUnlock => .lockCmd42
  | .opSetpassword => .lockCmd42
  | .opClearpassword => .lockCmd42
  | .opLocknow => .lockCmd42
  | .opForceerase => .lockCmd42
  | .hostCmd _ _ _ _ => .cmd
  | .hostAcmd _ _ _ _ => .acmdPrefix
  | .hostInit => .initCmd0
  | .hostLockunlock _ _ _ => .lockCmd16

/-- A word of the table stands in its slot (log entry 6). -/
def placeWord (slot : Slot) (c : Code) (s : State) : State :=
  match slot, c with
  | .hostPort, .request r => { s with phase := .idle, cs := false, hostPort := [r] }
  | .frame own, .frame f =>
    let q := match decodeFrame own f with
      | .ok i => issuer i
      | .error _ => .cmd
    { s with phase := .xAssert, cs := false, seq := q, reqOp := q.op, frameBuf := f }
  | .response, .byte b => { s with phase := .xPoll, cs := true, rx := [b] }
  | .token, .byte b => { s with phase := .dToken, cs := true, rbuf := [b, 0x00, 0x00], rleft := 1 }
  | .busy, .byte b => { s with phase := .dBusy, cs := true, rx := [b] }
  | .packetStart, _ => { s with phase := .dStart, cs := true }
  | .opByte _, .byte b =>
    { s with phase := .dData, cs := true, seq := .lockCmd42, reqOp := .lockUnlock, dptr := 0, dbuf := [b, 0x00] }
  | _, _ => s

end Sys2Proof.Machine
end

