-- ==== Sys2Proof/Machine/Step.lean ====
section
/-! DEFINITION. One step of the engine: one transport event, or the acceptance of a request (R31, R241). -/

namespace Sys2Proof.Machine

/-- One step: reset if its input is raised (R230); nothing while the transport does not complete a transfer (R31);
else the instruction that stands in the current slot, or the sequencer's own event. -/
def step (s : State) : Host.Outcome State Fault Refusal :=
  if s.resetPin then .next s.hardReset
  else if s.waiting then .next s
  else
    match fetch s with
    | .instr i => exec i s
    | .sequencer => .next (sequence s)
    | .badFrame => .refused .notACommandFrame

/-- `s` with a word of the opcode table, numbered as the table numbers it, where the next step reads it; neither the
reset input nor a stalled transfer keeps the step from it. -/
def State.withFetchWord (s : State) (nbits w : Nat) : State :=
  { placeWord (tableSlot nbits w) (tableCode nbits w) s with resetPin := false, stalled := false }

end Sys2Proof.Machine
end

