-- ==== Sys2Proof/Safety.lean ====
section
/-! DEFINITION. What counts as a safe run: the invariant of the engine, in the terms the statements use. -/

namespace Sys2Proof.Machine

/-- The chip-select level after a sequence of events, from a level; `none` if the sequence asserts it twice, releases
it twice, or transfers with it released (R142, D33). -/
def replayCS : List Event → Bool → Option Bool
  | [], level => some level
  | .cs true :: rest, level => if level then none else replayCS rest true
  | .cs false :: rest, level => if level then replayCS rest false else none
  | .xfer _ _ :: rest, level => if level then replayCS rest true else none

/-- The `responseLen` of an exchange, R76; `host` is REQ_RLEN. -/
def exchangeRlen (q : Seq) (host : Word) : Word :=
  match q with
  | .cmd => host
  | .acmdPrefix => 0
  | .acmdTarget => host
  | .initCmd0 => 0
  | .initCmd8 => 4
  | .initCmd58Pre => 4
  | .initCmd55 => 0
  | .initAcmd41 => 0
  | .initCmd58Post => 4
  | .lockCmd16 => 0
  | .lockCmd42 => 0
  | .lockCmd55 => 0
  | .lockAcmd13 => 1

/-- Whether an exchange has data, R81: `host` is REQ_HASDATA; CMD42 has the password block. -/
def exchangeHasData (q : Seq) (host : Bool) : Bool :=
  match q with
  | .cmd => host
  | .acmdPrefix => false
  | .acmdTarget => host
  | .initCmd0 => false
  | .initCmd8 => false
  | .initCmd58Pre => false
  | .initCmd55 => false
  | .initAcmd41 => false
  | .initCmd58Post => false
  | .lockCmd16 => false
  | .lockCmd42 => true
  | .lockCmd55 => false
  | .lockAcmd13 => false

/-- INIT_STATE while an exchange of INIT is in progress (R160). -/
def Seq.initState : Seq → Option InitState
  | .cmd => none
  | .acmdPrefix => none
  | .acmdTarget => none
  | .initCmd0 => some .reset
  | .initCmd8 => some .ifCheck
  | .initCmd58Pre => some .ocrPoll
  | .initCmd55 => some .ocrPoll
  | .initAcmd41 => some .ocrPoll
  | .initCmd58Post => some .ocrPoll
  | .lockCmd16 => none
  | .lockCmd42 => none
  | .lockCmd55 => none
  | .lockAcmd13 => none

/-- PHASE is at or before the last frame byte. -/
def Phase.framing : Phase → Bool
  | .xAssert => true
  | .xTx _ => true
  | .idle => false
  | .xPoll => false
  | .xCollect => false
  | .dStart => false
  | .dData => false
  | .dCrc _ => false
  | .dToken => false
  | .dBusy => false
  | .xRelease => false
  | .xReleaseErr _ _ => false

/-- PHASE is in the data write. -/
def Phase.writing : Phase → Bool
  | .dStart => true
  | .dData => true
  | .dCrc _ => true
  | .dToken => true
  | .dBusy => true
  | .idle => false
  | .xAssert => false
  | .xTx _ => false
  | .xPoll => false
  | .xCollect => false
  | .xRelease => false
  | .xReleaseErr _ _ => false

/-- INIT_STATE is one of the three values that stand between operations. -/
def InitState.settled : InitState → Bool
  | .reset => true
  | .ready => true
  | .failed => true
  | .idleWait => false
  | .ifCheck => false
  | .ocrPoll => false

/-- The causes of R200 that release chip-select through X_RELEASE_ERR, with their info bytes (R201). -/
def raisable (k : Kind) (info : Byte) (s : State) : Prop :=
  (k = .responseTimeout ∧ info = 0xFF) ∨
    (k = .dataWriteError ∧ info = s.token ∧ tokenAccepted info = false ∧ s.xHasData = true) ∨
    (k = .cardUnresponsive ∧ info = 0x00 ∧ s.params.busyBound ≠ none ∧ s.xHasData = true)

/-- The invariant: what every state that a run from reset reaches satisfies. -/
structure State.Inv (s : State) : Prop where
  /-- The parameters are as R6 requires. -/
  params : s.params.wf = true
  /-- CS = 0 at IDLE (R22), and is asserted exactly inside an exchange (R142). -/
  cs : s.cs = s.phase.selected
  /-- The trace is well bracketed, no transfer with chip-select released (R142, D33). -/
  trace : replayCS s.trace false = some s.cs
  /-- The exchange in progress belongs to the operation latched in REQ_OP. -/
  op : s.phase ≠ .idle → s.seq.op = s.reqOp
  /-- FRAME_BUF is the frame of the exchange (R81, R110). -/
  frame : s.phase.framing = true →
    s.frameBuf = buildFrame (exchangeId s.seq s.reqId) (exchangeArg s.seq s.reqArg s.params s.dbuf)
  /-- The exchange's operands (R76). -/
  operands : s.cs = true →
    s.xRlen = exchangeRlen s.seq s.reqRlen ∧ s.xHasData = exchangeHasData s.seq s.reqHasData
  /-- IDLE_CNT fits its register (R26), and a poll goes on only below the budget (R120). -/
  idleCnt : s.idleCnt ≤ Config.maxIdlePolls
  /-- RETRY_CNT fits its register (R26). -/
  retryCnt : s.retryCnt ≤ Config.acmd41Retries
  /-- A CMD0 attempt in progress is one of the 16 (R162). -/
  cmd0Attempt : s.phase ≠ .idle → s.seq = .initCmd0 → s.retryCnt < Config.cmd0Retries
  /-- An ACMD41 iteration in progress is one of the 1024 (R167). -/
  acmd41Attempt : s.phase ≠ .idle → s.seq = .initCmd55 ∨ s.seq = .initAcmd41 → s.retryCnt < Config.acmd41Retries
  /-- The poll phase (R120). -/
  polling : s.phase = .xPoll → s.rbuf = [] ∧ s.idleCnt < Config.maxIdlePolls
  /-- The collect phase (R121). -/
  collecting : s.phase = .xCollect → s.rbuf ≠ [] ∧ 0 < s.rleft ∧ s.rbuf.length + s.rleft = s.xRlen.toNat + 1
  /-- The token read (R148). -/
  tokenRead : s.phase = .dToken →
    (s.rbuf = [] ∧ s.idleCnt < Config.maxIdlePolls) ∨
      (s.rbuf ≠ [] ∧ 0 < s.rleft ∧ s.rbuf.length + s.rleft = Config.drtLen)
  /-- ERROR is the test of STATUS (R33). -/
  error : s.error = errorOf s.status
  /-- The reply payload has `responseLen` bytes (R139). -/
  payload : s.phase.writing = true ∨ s.phase = .xRelease → s.payload.length = s.xRlen.toNat
  /-- The data write happens only with data and without an error status (R141). -/
  writing : s.phase.writing = true → s.xHasData = true ∧ s.error = false
  /-- DPTR is an index of DBUF (R26, R146). -/
  dptr : s.phase = .dData → s.dptr < s.dbuf.length
  /-- The trailer is the CRC16 of the payload (R147). -/
  trailer : ∀ k, s.phase = .dCrc k → s.crc16 = Machine.crc16 s.dbuf
  /-- The busy wait follows an accepted token (R149, R150) and is below its bound (R126). -/
  busy : s.phase = .dBusy → tokenAccepted s.token = true ∧ ∀ n, s.params.busyBound = some n → s.busyCnt < n
  /-- What is raised, and with which info byte (R200, R201). -/
  raised : ∀ k info, s.phase = .xReleaseErr k info → raisable k info s
  /-- A CMD or ACMD with data has a non-empty payload (R137). -/
  commandData : s.phase ≠ .idle → s.reqOp = .cmd ∨ s.reqOp = .acmd → s.reqHasData = true → s.dbuf ≠ []
  /-- LOCKUNLOCK's DBUF is its password block (R180). -/
  block : s.phase ≠ .idle → s.reqOp = .lockUnlock →
    s.dbuf = passwordBlock s.params s.reqLockOp s.reqOld s.reqNew ∧ s.reqOld.length + s.reqNew.length ≤ 255
  /-- The buffers hold no more than their capacity (R27). -/
  dbufCap : withinCap s.dbuf.length s.params.dbufCap = true
  /-- The response of a host command fits RBUF (R27, R136). -/
  replyCap : s.phase ≠ .idle → s.reqOp = .cmd ∨ s.reqOp = .acmd →
    withinCap (s.reqRlen.toNat + 1) s.params.rbufCap = true
  /-- RBUF holds no more than its capacity (R27). -/
  rbufCap : withinCap s.rbuf.length s.params.rbufCap = true
  /-- INIT_STATE follows INIT's sequence (R160). -/
  initSeq : s.phase ≠ .idle → s.reqOp = .init → s.seq.initState = some s.initState
  /-- INIT_STATE outside INIT (R21). -/
  initSettled : s.phase = .idle ∨ s.reqOp ≠ .init → s.initState.settled = true
  /-- OCR_PRE holds 4 bytes or none (R23). -/
  ocrPre : ∀ v, s.ocrPre = some v → v.length = 4
  /-- OCR_POST holds 4 bytes or none (R23). -/
  ocrPost : ∀ v, s.ocrPost = some v → v.length = 4
  /-- Both OCR registers hold what a completed INIT captured (R166, R169); OCR_POST holds nothing else (R171). -/
  ocrReady : (s.initState = .ready → s.ocrPre ≠ none ∧ s.ocrPost ≠ none) ∧
    (s.initState ≠ .ready → s.ocrPost = none)
  /-- OCR_PRE is captured before the ACMD41 loop (R166). -/
  ocrPolled : s.phase ≠ .idle → s.seq = .initCmd55 ∨ s.seq = .initAcmd41 ∨ s.seq = .initCmd58Post → s.ocrPre ≠ none
  /-- ChecksumMismatch is never produced (R202). -/
  kinds : s.result.kind ≠ .checksumMismatch ∧ s.failKind ≠ .checksumMismatch

/-- Nothing keeps the engine from its next event: the reset input is low (R230) and the transport completes its
transfers (R31). -/
def State.running (s : State) : Bool := !s.resetPin && !s.stalled

/-- `n` steps, up to the first that stops. -/
def steps : Nat → State → Host.Outcome State Fault Refusal
  | 0, s => .next s
  | n + 1, s =>
    match step s with
    | .next t => steps n t
    | .fault r => .fault r
    | .refused r => .refused r

/-- The byte the next transfer of a phase transmits (R30, R54). Only the phases that transfer use it. -/
def State.transmits (s : State) : Byte :=
  match s.phase with
  | .xTx i => frameByte s.frameBuf i
  | .dStart => 0xFE
  | .dData => s.dbuf.getD s.dptr 0xFF
  | .dCrc k => if k = 0 then s.crc16.extractLsb' 8 8 else s.crc16.extractLsb' 0 8
  | .idle => 0xFF
  | .xAssert => 0xFF
  | .xPoll => 0xFF
  | .xCollect => 0xFF
  | .dToken => 0xFF
  | .dBusy => 0xFF
  | .xRelease => 0xFF
  | .xReleaseErr _ _ => 0xFF

/-- The next event of a phase: the second column of R30's table. -/
def State.nextEvents (s : State) : List Event :=
  match s.phase with
  | .idle => []
  | .xAssert => [.cs true]
  | .xRelease => [.cs false]
  | .xReleaseErr _ _ => [.cs false]
  | .xTx _ => [.xfer s.transmits s.rxByte]
  | .xPoll => [.xfer s.transmits s.rxByte]
  | .xCollect => [.xfer s.transmits s.rxByte]
  | .dStart => [.xfer s.transmits s.rxByte]
  | .dData => [.xfer s.transmits s.rxByte]
  | .dCrc _ => [.xfer s.transmits s.rxByte]
  | .dToken => [.xfer s.transmits s.rxByte]
  | .dBusy => [.xfer s.transmits s.rxByte]

/-- The label is an error release. -/
def Phase.isReleaseErr : Phase → Bool
  | .xReleaseErr _ _ => true
  | .idle => false
  | .xAssert => false
  | .xTx _ => false
  | .xPoll => false
  | .xCollect => false
  | .dStart => false
  | .dData => false
  | .dCrc _ => false
  | .dToken => false
  | .dBusy => false
  | .xRelease => false

/-- Which label may follow which: the third column of R30's table. -/
def Phase.leavesTo (p q : Phase) : Bool :=
  match p with
  | .idle => q == .idle || q == .xAssert
  | .xAssert => q == .xTx 0
  | .xTx i => if h : i.val + 1 < 6 then q == .xTx ⟨i.val + 1, h⟩ else q == .xPoll
  | .xPoll => q == .xPoll || q == .xCollect || q == .dStart || q == .xRelease || q.isReleaseErr
  | .xCollect => q == .xCollect || q == .dStart || q == .xRelease
  | .dStart => q == .dData
  | .dData => q == .dData || q == .dCrc 0
  | .dCrc k => if k = 0 then q == .dCrc 1 else q == .dToken
  | .dToken => q == .dToken || q == .dBusy || q.isReleaseErr
  | .dBusy => q == .dBusy || q == .xRelease || q.isReleaseErr
  | .xRelease => q == .idle || q == .xAssert
  | .xReleaseErr _ _ => q == .idle

/-- Which operation can end with which kind: R204's table, `withData` for CMD and ACMD, `bounded` when BUSY_BOUND is
a count. -/
def canEndWith (op : HostOp) (withData bounded : Bool) (k : Kind) : Bool :=
  match k with
  | .ok => true
  | .responseTimeout => true
  | .dataWriteError => op == .lockUnlock || (op != .init && withData)
  | .cardInitError => op == .init
  | .unsupportedCard => op == .init
  | .cardUnresponsive => (op == .lockUnlock || (op != .init && withData)) && bounded
  | .refused => op != .init
  | .checksumMismatch => false

/-- The REQ_* registers and DBUF (R25) are the same in both states. -/
def sameRequest (s t : State) : Prop :=
  t.reqOp = s.reqOp ∧ t.reqId = s.reqId ∧ t.reqArg = s.reqArg ∧ t.reqRlen = s.reqRlen ∧
    t.reqHasData = s.reqHasData ∧ t.reqLockOp = s.reqLockOp ∧ t.reqOld = s.reqOld ∧ t.reqNew = s.reqNew ∧
    t.dbuf = s.dbuf

/-- What INIT leaves behind (R21, R23) is the same in both states. -/
def sameInit (s t : State) : Prop :=
  t.initState = s.initState ∧ t.failKind = s.failKind ∧ t.failInfo = s.failInfo ∧ t.ocrPre = s.ocrPre ∧
    t.ocrPost = s.ocrPost

/-- RESULT is the same in both states. -/
def sameResult (s t : State) : Prop := t.result = s.result ∧ t.resultDelivered = s.resultDelivered

end Sys2Proof.Machine
end

