-- ==== Sys2Proof/Certificates/Slice0/Obligations.lean ====
section
/-! DEFINITION. The statements for the provers. Each docstring names the rules of spec/ the statement formalises.
An equation `exec i s = .next { s with ... }` says the whole next state, and so is the instruction's frame too: every
register, flag, counter and buffer it does not name is unchanged. There is no addressable memory (R50), so the frames
have no memory clause. -/

open Sys2Proof Sys2Proof.Machine

/-! ### Encodings and checksums -/

/-- R72, R73, R74, R52, R110: the six bytes of FRAME as numbers, the CRC7 over the first five, and R110's three
examples. -/
def Obligations.FrameBytes : Prop :=
  (∀ (id : BitVec 6) (arg : Word),
    (buildFrame id arg).b0.toNat = 0x40 + id.toNat ∧
    arg.toNat = (((buildFrame id arg).b1.toNat * 256 + (buildFrame id arg).b2.toNat) * 256 +
      (buildFrame id arg).b3.toNat) * 256 + (buildFrame id arg).b4.toNat ∧
    (buildFrame id arg).b5.toNat = 2 * (crc7 [(buildFrame id arg).b0, (buildFrame id arg).b1, (buildFrame id arg).b2,
      (buildFrame id arg).b3, (buildFrame id arg).b4]).toNat + 1) ∧
  buildFrame 0 0 = ⟨0x40, 0x00, 0x00, 0x00, 0x00, 0x95⟩ ∧
  buildFrame 63 0xFFFFFFFF = ⟨0x7F, 0xFF, 0xFF, 0xFF, 0xFF, 0x19⟩ ∧
  buildFrame 55 0 = ⟨0x77, 0x00, 0x00, 0x00, 0x00, 0x65⟩

/-- R111: a frame is six bytes with the stop bit set, decoding it gives its fields, FRAME is injective in bytes 0 to
4, and a frame is valid exactly when it is FRAME's. -/
def Obligations.FrameIsInvertible : Prop :=
  (∀ (id : BitVec 6) (arg : Word),
    (buildFrame id arg).bytes.length = 6 ∧ (buildFrame id arg).b5.getLsbD 0 = true ∧
    (buildFrame id arg).commandId = id ∧ (buildFrame id arg).argument = arg) ∧
  (∀ (id id' : BitVec 6) (arg arg' : Word), (id, arg) ≠ (id', arg') →
    (buildFrame id arg).bytes.take 5 ≠ (buildFrame id' arg').bytes.take 5) ∧
  (∀ f : Frame, (f.b0.extractLsb' 6 2 = 0b01 ∧ f.b5.getLsbD 0 = true ∧ f.crc = crc7 [f.b0, f.b1, f.b2, f.b3, f.b4]) ↔
    ∃ id arg, f = buildFrame id arg)

/-- R101: linear (b), incremental (c), and an implementation conforms exactly when it returns the same 7 bits for
every input (d); and R100's corner case of leading zeros. (That it is a function of its input, (a), is its type.) -/
def Obligations.Crc7Laws : Prop :=
  (∀ p q : List Byte, p.length = q.length → crc7 (List.zipWith (· ^^^ ·) p q) = crc7 p ^^^ crc7 q) ∧
  (∀ p q : List Byte, crc7 (p ++ q) = crcRun Config.crc7Poly (crc7 p) q) ∧
  (∀ (n : Nat) (p : List Byte), crc7 (List.replicate n 0x00 ++ p) = crc7 p) ∧
  (∀ f : List Byte → BitVec 7, f = crc7 ↔ ∀ p, f p = crc7 p)

/-- R106: the laws of R101 for CRC16, and appending the trailer leaves the register at 0x0000. -/
def Obligations.Crc16Laws : Prop :=
  (∀ p q : List Byte, p.length = q.length → crc16 (List.zipWith (· ^^^ ·) p q) = crc16 p ^^^ crc16 q) ∧
  (∀ p q : List Byte, crc16 (p ++ q) = crcRun Config.crc16Poly (crc16 p) q) ∧
  (∀ (n : Nat) (p : List Byte), crc16 (List.replicate n 0x00 ++ p) = crc16 p) ∧
  (∀ f : List Byte → BitVec 16, f = crc16 ↔ ∀ p, f p = crc16 p) ∧
  (∀ p : List Byte, crc16 (p ++ [(crc16 p).extractLsb' 8 8, (crc16 p).extractLsb' 0 8]) = 0x0000)

/-- R96, R71, R77 to R81, R88, R92: for every well-formed instruction, its word decodes to it in its slot. The slots
are the model's reading of the table, log entry 1. -/
def Obligations.DecodeEncode : Prop :=
  ∀ i : Instr, i.wf = true → decode i.slot (encode i) = .ok i

/-- R71, R81: no two frames decode to one instruction: the instruction a frame decodes to has that frame as its
word, in either slot. -/
def Obligations.EncodeDecodeFrame : Prop :=
  ∀ (own : Bool) (f : Frame) (i : Instr), decodeFrame own f = .ok i → encode i = .frame f

/-- R71, R77, R78, R81, R92: a few words of the table, decoded as the host asks it. The choice of the slot is the
model's, log entry 1. -/
def Obligations.DecodedWords : Prop :=
  decodeTableWord 48 0x400000000095 = some .cmd0 ∧
  decodeTableWord 48 0x480000001A45 = some (.cmd8 0x000000 0x22) ∧
  decodeTableWord 48 0x694000000077 = some (.acmd41 0x40000000 0x3B) ∧
  decodeTableWord 48 0x581234567867 = some (.cmd 24 0x12345678 0x33) ∧
  decodeTableWord 48 0x800000000095 = none ∧
  decodeTableWord 8 0xFE = some .startToken ∧
  decodeTableWord 8 0xE5 = some (.drtAccept 0b111) ∧
  decodeTableWord 8 0x02 = some .hostInit

/-! ### Reset and idling -/

/-- R37, R230, R231: from any state, with the reset input raised, the next state is R37's; no transfer is made, a chip
select that was asserted is seen released, no result is delivered, and nothing happens until a request comes. The same
holds of the state right after reset. -/
def Obligations.ResetState : Prop :=
  (∀ s : State, s.resetPin = true →
    ∃ t, step s = .next t ∧ t.phase = .idle ∧ t.cs = false ∧ t.initState = .reset ∧ t.ocrPre = none ∧
      t.ocrPost = none ∧ t.resultDelivered = false ∧ t.params = s.params ∧
      t.trace = s.trace ++ (if s.cs = true then [.cs false] else []) ∧ (t.hostPort = [] → step t = .next t)) ∧
  (State.reset.phase = .idle ∧ State.reset.cs = false ∧ State.reset.initState = .reset ∧ State.reset.ocrPre = none ∧
    State.reset.ocrPost = none ∧ State.reset.resultDelivered = false ∧ step State.reset = .next State.reset)

/-- R31: with no request at IDLE, and in a transfer the transport does not complete, the engine stays as it is. The
`stalled` input is the model's, log entry 11. -/
def Obligations.WaitingChangesNothing : Prop :=
  (∀ s : State, s.resetPin = false → s.phase = .idle → s.hostPort = [] → step s = .next s) ∧
  (∀ s : State, s.resetPin = false → s.stalled = true → s.phase.transfers = true → step s = .next s)

/-! ### The step and the instructions -/

/-- The engine runs the instruction its decoder reads in the current slot (log entry 1): the request at IDLE (R241),
the frame at X_ASSERT (R81), the byte received while polling (R120), the byte before the payload (R77), byte 0 of the
password block (R80), the token when its four bytes are in (R78), and the byte received in the busy wait (R79). -/
def Obligations.StepRunsTheDecodedInstruction : Prop :=
  ∀ (s : State) (i : Instr), s.running = true →
    (∀ r rest, s.phase = .idle → s.hostPort = r :: rest → decode .hostPort (.request r) = .ok i →
      step s = exec i s) ∧
    (s.phase = .xAssert → decode (.frame s.seq.own) (.frame s.frameBuf) = .ok i → step s = exec i s) ∧
    (s.phase = .xPoll → decode .response (.byte s.rxByte) = .ok i → step s = exec i s) ∧
    (s.phase = .dStart → decode .packetStart (.byte 0xFE) = .ok i → step s = exec i s) ∧
    (∀ b rest, s.phase = .dData → s.seq = .lockCmd42 → s.dptr = 0 → s.dbuf = b :: rest →
      decode (.opByte s.params.opBytes) (.byte b) = .ok i → step s = exec i s) ∧
    (s.phase = .dToken → s.params.drtViaPoller = true → s.rbuf = [] → s.rxByte = 0xFF →
      decode .response (.byte s.rxByte) = .ok i → step s = exec i s) ∧
    (∀ t rest, s.phase = .dToken → s.rbuf = t :: rest → s.rleft ≤ 1 → decode .token (.byte t) = .ok i →
      step s = exec i s) ∧
    (s.phase = .dBusy → decode .busy (.byte s.rxByte) = .ok i → step s = exec i s)

/-- R81, R135: the five frames with no open field. CMD0, CMD58, CMD55, CMD42 and ACMD13 complete from every state:
chip-select is asserted, FRAME_BUF holds R81's bytes, and the exchange has R76's response length and R81's data. -/
def Obligations.FixedFrameRowsBegin : Prop :=
  ∀ s : State,
    exec .cmd0 s = .next { s with
      cs := true, trace := s.trace ++ [.cs true], frameBuf := ⟨0x40, 0x00, 0x00, 0x00, 0x00, 0x95⟩,
      xRlen := 0, xHasData := false, phase := .xTx 0 } ∧
    exec .cmd58 s = .next { s with
      cs := true, trace := s.trace ++ [.cs true], frameBuf := ⟨0x7A, 0x00, 0x00, 0x00, 0x00, 0xFD⟩,
      xRlen := 4, xHasData := false, phase := .xTx 0 } ∧
    exec .cmd55 s = .next { s with
      cs := true, trace := s.trace ++ [.cs true], frameBuf := ⟨0x77, 0x00, 0x00, 0x00, 0x00, 0x65⟩,
      xRlen := 0, xHasData := false, phase := .xTx 0 } ∧
    exec .cmd42 s = .next { s with
      cs := true, trace := s.trace ++ [.cs true], frameBuf := ⟨0x6A, 0x00, 0x00, 0x00, 0x00, 0x51⟩,
      xRlen := 0, xHasData := true, phase := .xTx 0 } ∧
    exec .acmd13 s = .next { s with
      cs := true, trace := s.trace ++ [.cs true], frameBuf := ⟨0x4D, 0x00, 0x00, 0x00, 0x00, 0x0D⟩,
      xRlen := 1, xHasData := false, phase := .xTx 0 }

/-- R81, R71, R135, R164, R167, R184: the frames with operands. CMD, CMD8, ACMD41 and CMD16 complete from every
state and for every operand; CMD takes its response length and data from the request. -/
def Obligations.OperandFrameRowsBegin : Prop :=
  ∀ (s : State) (id : BitVec 6) (arg : Word) (hi : BitVec 24) (k : BitVec 7),
    exec (.cmd id arg k) s = .next { s with
      cs := true, trace := s.trace ++ [.cs true],
      frameBuf := ⟨(0b01 : BitVec 2) ++ id, arg.extractLsb' 24 8, arg.extractLsb' 16 8, arg.extractLsb' 8 8,
        arg.extractLsb' 0 8, k ++ (1 : BitVec 1)⟩,
      xRlen := s.reqRlen, xHasData := s.reqHasData, phase := .xTx 0 } ∧
    exec (.cmd8 hi k) s = .next { s with
      cs := true, trace := s.trace ++ [.cs true],
      frameBuf := ⟨0x48, hi.extractLsb' 16 8, hi.extractLsb' 8 8, hi.extractLsb' 0 8, 0x1A, k ++ (1 : BitVec 1)⟩,
      xRlen := 4, xHasData := false, phase := .xTx 0 } ∧
    exec (.acmd41 arg k) s = .next { s with
      cs := true, trace := s.trace ++ [.cs true],
      frameBuf := ⟨0x69, arg.extractLsb' 24 8, arg.extractLsb' 16 8, arg.extractLsb' 8 8, arg.extractLsb' 0 8,
        k ++ (1 : BitVec 1)⟩,
      xRlen := 0, xHasData := false, phase := .xTx 0 } ∧
    exec (.cmd16 arg k) s = .next { s with
      cs := true, trace := s.trace ++ [.cs true],
      frameBuf := ⟨0x50, arg.extractLsb' 24 8, arg.extractLsb' 16 8, arg.extractLsb' 8 8, arg.extractLsb' 0 8,
        k ++ (1 : BitVec 1)⟩,
      xRlen := 0, xHasData := false, phase := .xTx 0 }

/-- R120, R121, R139, R140, R141: a status byte, whatever its value. With no reply bytes the response is complete:
STATUS, ERROR and the data condition; otherwise `responseLen` bytes are left to collect. -/
def Obligations.StatusRow : Prop :=
  ∀ (s : State) (b : Byte),
    (s.xRlen = 0 → exec (.status b) s = .next { s.xferAs 0xFF b with
      rbuf := [b], rleft := 0, status := b, payload := [], error := decide (b &&& 0xFE ≠ 0),
      phase := if b &&& 0xFE = 0 ∧ s.xHasData = true then .dStart else .xRelease }) ∧
    (s.xRlen ≠ 0 → exec (.status b) s = .next { s.xferAs 0xFF b with
      rbuf := [b], rleft := s.xRlen.toNat, phase := .xCollect })

/-- R120, R138: an idle byte is counted; the eighth ends the poll with ResponseTimeout(0xFF), chip-select to be
released by the next event. -/
def Obligations.IdleByteRow : Prop :=
  ∀ s : State, s.cs = true →
    (s.idleCnt + 1 ≠ 8 → exec .idleByte s = .next { s.xferAs 0xFF 0xFF with idleCnt := s.idleCnt + 1 }) ∧
    (s.idleCnt + 1 = 8 → exec .idleByte s = .next { s.xferAs 0xFF 0xFF with
      idleCnt := 8, phase := .xReleaseErr .responseTimeout 0xFF })

/-- R126: a busy byte is counted only when BUSY_BOUND is a count; the N-th raises CardUnresponsive(0x00). -/
def Obligations.BusyByteRow : Prop :=
  ∀ s : State, s.cs = true →
    (s.params.busyBound = none → exec .busyByte s = .next (s.xferAs 0xFF 0x00)) ∧
    (∀ n, s.params.busyBound = some n → s.busyCnt + 1 ≠ n →
      exec .busyByte s = .next { s.xferAs 0xFF 0x00 with busyCnt := s.busyCnt + 1 }) ∧
    (∀ n, s.params.busyBound = some n → s.busyCnt + 1 = n →
      exec .busyByte s = .next { s.xferAs 0xFF 0x00 with
        busyCnt := n, phase := .xReleaseErr .cardUnresponsive 0x00 })

/-- R148, R149, R150: the fourth token byte after an accepted first one: TOKEN is the first, and the busy wait begins
with BUSY_CNT at 0 (R126). That the row stands at the fourth token byte, and TOKEN is written there, is the model's
choice, log entry 16; so is that RBUF and RLEFT hold the bytes of a raw token read too, log entry 13. -/
def Obligations.DrtAcceptRow : Prop :=
  ∀ (s : State) (u : BitVec 3),
    exec (.drtAccept u) s = .next { s.xfer 0xFF with
      rbuf := s.rbuf ++ [s.rxByte], rleft := 0, token := u ++ (0b00101 : BitVec 5), busyCnt := 0, phase := .dBusy }

/-- R145, R146: the start token is one transfer, and the payload follows from DPTR 0. (With an empty DBUF, which R58
excludes, the trailer would be next.) -/
def Obligations.StartTokenRow : Prop :=
  ∀ s : State,
    (s.dbuf ≠ [] → exec .startToken s = .next { s.xfer 0xFE with dptr := 0, phase := .dData }) ∧
    (s.dbuf = [] → exec .startToken s = .next { s.xfer 0xFE with dptr := 0, crc16 := 0x0000, phase := .dCrc 0 })

/-- R181, R88, R146: the five operation rows put the operation's byte in DBUF[0] and transmit it as payload byte 0;
the rest of DBUF is unchanged. That a row runs at the transfer of block byte 0, and writes DBUF[0] there as well as at
the block's assembly, is the model's choice, log entry 15; so is that a block of one byte, which R183 excludes, goes on
to the trailer, log entry 23. -/
def Obligations.OpByteRows : Prop :=
  ∀ (s : State) (i : Instr) (b : Byte),
    (i, b) ∈ [(Instr.opUnlock, s.params.opBytes.unlock), (Instr.opSetpassword, s.params.opBytes.setPassword),
      (Instr.opClearpassword, s.params.opBytes.clearPassword), (Instr.opLocknow, s.params.opBytes.lockNow),
      (Instr.opForceerase, s.params.opBytes.forceErase)] →
    (s.dbuf.tail ≠ [] → exec i s = .next { s.xfer b with dbuf := b :: s.dbuf.tail, dptr := 1, phase := .dData }) ∧
    (s.dbuf.tail = [] → exec i s = .next { s.xfer b with
      dbuf := [b], dptr := 1, crc16 := crc16 [b], phase := .dCrc 0 })

/-! ### Host requests -/

/-- R25, R135, R136: a CMD request within the limits is latched and its frame built; no event yet. REQ_LOCKOP,
REQ_OLD and REQ_NEW, and DBUF when no data is supplied, keep their values (the model's choice, log entry 19). -/
def Obligations.HostCmdAccepted : Prop :=
  ∀ (s : State) (id : Byte) (arg rlen : Word) (data : Option (List Byte)),
    id.toNat ≤ 63 → (∀ c, s.params.rbufCap = some c → rlen.toNat + 1 ≤ c) →
    (∀ d, data = some d → d ≠ [] ∧ ∀ c, s.params.dbufCap = some c → d.length ≤ c) →
    exec (.hostCmd id arg rlen data) s = .next { s with
      hostPort := s.hostPort.tail, reqOp := .cmd, reqId := BitVec.ofNat 6 id.toNat, reqArg := arg, reqRlen := rlen,
      reqHasData := data.isSome, dbuf := data.getD s.dbuf,
      frameBuf := buildFrame (BitVec.ofNat 6 id.toNat) arg, crc7 := (buildFrame (BitVec.ofNat 6 id.toNat) arg).crc,
      seq := .cmd, phase := .xAssert }

/-- R25, R153: an ACMD request within the limits is latched, and the frame of CMD55 is built first. What is kept is
the model's choice, log entry 19. -/
def Obligations.HostAcmdAccepted : Prop :=
  ∀ (s : State) (id : Byte) (arg rlen : Word) (data : Option (List Byte)),
    id.toNat ≤ 63 → (∀ c, s.params.rbufCap = some c → rlen.toNat + 1 ≤ c) →
    (∀ d, data = some d → d ≠ [] ∧ ∀ c, s.params.dbufCap = some c → d.length ≤ c) →
    exec (.hostAcmd id arg rlen data) s = .next { s with
      hostPort := s.hostPort.tail, reqOp := .acmd, reqId := BitVec.ofNat 6 id.toNat, reqArg := arg, reqRlen := rlen,
      reqHasData := data.isSome, dbuf := data.getD s.dbuf,
      frameBuf := ⟨0x77, 0x00, 0x00, 0x00, 0x00, 0x65⟩, crc7 := 0x32, seq := .acmdPrefix, phase := .xAssert }

/-- R136, R137, R206: a CMD or ACMD request with an index above 63, a response or data beyond the buffers, or empty
data is refused: no event, and nothing but RESULT is written (the request is taken from the port, and the free values
of RESULT's status and info are drawn, log entry 9). -/
def Obligations.HostCommandRefused : Prop :=
  ∀ (s : State) (id : Byte) (arg rlen : Word) (data : Option (List Byte)) (i : Instr),
    i = .hostCmd id arg rlen data ∨ i = .hostAcmd id arg rlen data →
    63 < id.toNat ∨ (∃ c, s.params.rbufCap = some c ∧ c < rlen.toNat + 1) ∨ data = some [] ∨
      (∃ d c, data = some d ∧ s.params.dbufCap = some c ∧ c < d.length) →
    ∃ t, exec i s = .next t ∧ t.result.kind = .refused ∧
      t = { s with hostPort := s.hostPort.tail, result := t.result, resultDelivered := true, phase := .idle,
                   fresh := t.fresh }

/-- R161: INIT is accepted in every INIT_STATE and starts from the beginning: S_RESET and both OCR registers `none`;
R160, R162: RETRY_CNT 0 and the frame of CMD0. That the request registers INIT does not use and DBUF keep their values
is the model's choice, log entry 19, and so is that FAIL_KIND and FAIL_INFO keep theirs, log entry 17. -/
def Obligations.HostInitAccepted : Prop :=
  ∀ s : State,
    exec .hostInit s = .next { s with
      hostPort := s.hostPort.tail, reqOp := .init, initState := .reset, ocrPre := none, ocrPost := none,
      retryCnt := 0, frameBuf := ⟨0x40, 0x00, 0x00, 0x00, 0x00, 0x95⟩, crc7 := 0x4A, seq := .initCmd0,
      phase := .xAssert }

/-- R25: a LOCKUNLOCK request within the limits is latched; R80, R181, R183: DBUF is the password block; R184: the frame
of CMD16 announces its length. That REQ_ID, REQ_ARG, REQ_RLEN and REQ_HASDATA keep their values is the model's choice,
log entry 19. -/
def Obligations.HostLockunlockAccepted : Prop :=
  ∀ (s : State) (op : LockOp) (old new : List Byte),
    old.length + new.length ≤ 255 → (∀ c, s.params.dbufCap = some c → 2 + old.length + new.length ≤ c) →
    exec (.hostLockunlock op.code old new) s = .next { s with
      hostPort := s.hostPort.tail, reqOp := .lockUnlock, reqLockOp := op, reqOld := old, reqNew := new,
      dbuf := [op.byte s.params.opBytes, BitVec.ofNat 8 (old.length + new.length)] ++ old ++ new,
      frameBuf := buildFrame 16 (BitVec.ofNat 32 (2 + old.length + new.length)),
      crc7 := (buildFrame 16 (BitVec.ofNat 32 (2 + old.length + new.length))).crc, seq := .lockCmd16,
      phase := .xAssert }

/-- R182, R206: a LOCKUNLOCK request with an operation code of 5 to 7, more than 255 password bytes, or a block
beyond DBUF_CAP is refused; both passwords may be empty, for each of the five operations. -/
def Obligations.HostLockunlockRefused : Prop :=
  (∀ (s : State) (op : BitVec 3) (old new : List Byte),
    4 < op.toNat ∨ 255 < old.length + new.length ∨
      (∃ c, s.params.dbufCap = some c ∧ c < 2 + old.length + new.length) →
    ∃ t, exec (.hostLockunlock op old new) s = .next t ∧ t.result.kind = .refused ∧
      t = { s with hostPort := s.hostPort.tail, result := t.result, resultDelivered := true, phase := .idle,
                   fresh := t.fresh }) ∧
  (∀ (s : State) (op : LockOp), s.params.wf = true →
    ∃ t, exec (.hostLockunlock op.code [] []) s = .next t ∧ t.phase = .xAssert ∧
      t.dbuf = [op.byte s.params.opBytes, 0x00])

/-! ### An exchange, run step by step -/

/-- R135, R54, R59: the frame is six transfers in index order, the received bytes discarded; the poll begins. -/
def Obligations.FrameIsTransmitted : Prop :=
  ∀ (s : State) (got rest : List Byte),
    s.running = true → s.phase = .xTx 0 → got.length = 6 → s.rx = got ++ rest →
    steps 6 s = .next { s with
      rx := rest, trace := s.trace ++ List.zipWith .xfer s.frameBuf.bytes got, idleCnt := 0, rbuf := [],
      phase := .xPoll }

/-- R122, R120, R121, R139 to R141: READRESP for a response. `i` idle bytes (at most 7), a non-idle byte and
`responseLen` more: `i + 1 + responseLen` transfers of 0xFF, and the response is the non-idle byte and what follows it,
whatever it is. Eight idle bytes: `Timeout` after exactly eight transfers of 0xFF, STATUS and ERROR not written. -/
def Obligations.ReadResp : Prop :=
  (∀ (s : State) (i : Nat) (st : Byte) (reply rest : List Byte),
    s.running = true → s.phase = .xPoll → s.idleCnt = 0 → s.rbuf = [] → s.cs = true → i ≤ 7 → st ≠ 0xFF →
    reply.length = s.xRlen.toNat → s.rx = List.replicate i 0xFF ++ st :: reply ++ rest →
    steps (i + 1 + reply.length) s = .next { s with
      rx := rest, trace := s.trace ++ (List.replicate i 0xFF ++ st :: reply).map (.xfer 0xFF), idleCnt := i,
      rbuf := st :: reply, rleft := 0, status := st, payload := reply, error := decide (st &&& 0xFE ≠ 0),
      phase := if st &&& 0xFE = 0 ∧ s.xHasData = true then .dStart else .xRelease }) ∧
  (∀ (s : State) (rest : List Byte),
    s.running = true → s.phase = .xPoll → s.idleCnt = 0 → s.rbuf = [] → s.cs = true →
    s.rx = List.replicate 8 0xFF ++ rest →
    steps 8 s = .next { s with
      rx := rest, trace := s.trace ++ List.replicate 8 (.xfer 0xFF 0xFF), idleCnt := 8,
      phase := .xReleaseErr .responseTimeout 0xFF })

/-- R138, R172, R189: an exchange with no response: chip-select, the six frame transfers, eight polls, chip-select
released, ResponseTimeout(0xFF); STATUS and ERROR are not written, no data is sent, and inside INIT the failure is
recorded. -/
def Obligations.ResponseTimeoutEndsTheOperation : Prop :=
  ∀ (s : State) (got rest : List Byte),
    s.Inv → s.running = true → s.phase = .xAssert → got.length = 6 →
    s.rx = got ++ List.replicate 8 0xFF ++ rest →
    ∃ t, steps 16 s = .next t ∧ t.phase = .idle ∧ t.cs = false ∧ t.resultDelivered = true ∧
      t.result.kind = .responseTimeout ∧ t.result.info = 0xFF ∧ t.status = s.status ∧ t.error = s.error ∧
      t.rx = rest ∧
      t.trace = s.trace ++ [.cs true] ++ List.zipWith .xfer s.frameBuf.bytes got ++
        List.replicate 8 (.xfer 0xFF 0xFF) ++ [.cs false] ∧
      (s.reqOp = .init → t.initState = .failed ∧ t.failKind = .responseTimeout ∧ t.failInfo = 0xFF ∧
        t.ocrPre = s.ocrPre ∧ t.ocrPost = none) ∧
      (s.reqOp ≠ .init → sameInit s t)

/-- R145, R146, R147, R77, R53: the data packet: the start token, every payload byte once in index order, and the
CRC16 of the payload, high byte first; the received bytes are discarded, and the token read begins. That IDLE_CNT and
RBUF are cleared also where the token is read raw is the model's choice, log entry 13. -/
def Obligations.DataPacketIsTransmitted : Prop :=
  ∀ (s : State) (got rest : List Byte),
    s.running = true → s.phase = .dStart → s.dbuf ≠ [] → got.length = s.dbuf.length + 3 → s.rx = got ++ rest →
    steps (s.dbuf.length + 3) s = .next { s with
      rx := rest,
      trace := s.trace ++ List.zipWith .xfer
        (0xFE :: s.dbuf ++ [(crc16 s.dbuf).extractLsb' 8 8, (crc16 s.dbuf).extractLsb' 0 8]) got,
      dptr := s.dbuf.length, crc16 := crc16 s.dbuf, idleCnt := 0, rbuf := [], phase := .dToken }

/-- R148, R149: the token read through the poller (up to seven idle bytes skipped, then four bytes) and raw (exactly
four bytes, no idle test), and the check of the first byte: accepted when its low five bits are 0b00101, else
DataWriteError with the token unmasked and no busy wait. In poller mode eight idle bytes in its place raise
ResponseTimeout(0xFF). That the raw read starts from IDLE_CNT 0 and an empty RBUF, and keeps its bytes in RBUF counted
by RLEFT, is the model's choice, log entry 13. -/
def Obligations.TokenRead : Prop :=
  (∀ (s : State) (i : Nat) (tok a b c : Byte) (rest : List Byte),
    s.running = true → s.phase = .dToken → s.cs = true → s.rbuf = [] → s.idleCnt = 0 →
    s.rx = List.replicate i 0xFF ++ [tok, a, b, c] ++ rest →
    (s.params.drtViaPoller = true ∧ i ≤ 7 ∧ tok ≠ 0xFF) ∨ (s.params.drtViaPoller = false ∧ i = 0) →
    (tok &&& 0x1F = 0x05 → steps (i + 4) s = .next { s with
      rx := rest, trace := s.trace ++ (List.replicate i 0xFF ++ [tok, a, b, c]).map (.xfer 0xFF), idleCnt := i,
      rbuf := [tok, a, b, c], rleft := 0, token := tok, busyCnt := 0, phase := .dBusy }) ∧
    (tok &&& 0x1F ≠ 0x05 → steps (i + 4) s = .next { s with
      rx := rest, trace := s.trace ++ (List.replicate i 0xFF ++ [tok, a, b, c]).map (.xfer 0xFF), idleCnt := i,
      rbuf := [tok, a, b, c], rleft := 0, token := tok, phase := .xReleaseErr .dataWriteError tok })) ∧
  (∀ (s : State) (rest : List Byte),
    s.running = true → s.phase = .dToken → s.cs = true → s.rbuf = [] → s.idleCnt = 0 →
    s.params.drtViaPoller = true → s.rx = List.replicate 8 0xFF ++ rest →
    steps 8 s = .next { s with
      rx := rest, trace := s.trace ++ List.replicate 8 (.xfer 0xFF 0xFF), idleCnt := 8,
      phase := .xReleaseErr .responseTimeout 0xFF })

/-- R126, R150: the busy wait: below the bound, `b` zero bytes and one other byte end it after `b + 1` transfers; the
zero byte that reaches BUSY_BOUND raises CardUnresponsive(0x00). -/
def Obligations.BusyWait : Prop :=
  ∀ (s : State) (b : Nat) (rest : List Byte),
    s.running = true → s.phase = .dBusy → s.cs = true → s.busyCnt = 0 →
    (∀ r, r ≠ 0x00 → s.rx = List.replicate b 0x00 ++ r :: rest → (∀ n, s.params.busyBound = some n → b < n) →
      steps (b + 1) s = .next { s with
        rx := rest, trace := s.trace ++ List.replicate b (.xfer 0xFF 0x00) ++ [.xfer 0xFF r],
        busyCnt := if s.params.busyBound = none then 0 else b, phase := .xRelease }) ∧
    (s.rx = List.replicate b 0x00 ++ rest → 0 < b → s.params.busyBound = some b →
      steps b s = .next { s with
        rx := rest, trace := s.trace ++ List.replicate b (.xfer 0xFF 0x00), busyCnt := b,
        phase := .xReleaseErr .cardUnresponsive 0x00 })

/-- R127: with BUSY_BOUND = none a card that returns 0x00 holds the engine in the loop for as long as it does: any
number of transfers of 0xFF, chip-select as it was, no result. -/
def Obligations.UnboundedBusyWait : Prop :=
  ∀ (s : State) (n : Nat) (rest : List Byte),
    s.running = true → s.phase = .dBusy → s.params.busyBound = none → s.rx = List.replicate n 0x00 ++ rest →
    steps n s = .next { s with rx := rest, trace := s.trace ++ List.replicate n (.xfer 0xFF 0x00) }

/-- R135, R141, R142, R143: a host CMD that writes no data, from the frame to the result: the response after `i`
idle bytes, no data phase (no data supplied, or an error status), chip-select asserted first and released last, the
status and exactly `responseLen` reply bytes returned with kind Ok, error bits or not. -/
def Obligations.CmdWithoutDataWrite : Prop :=
  ∀ (s : State) (got : List Byte) (i : Nat) (st : Byte) (reply rest : List Byte),
    s.Inv → s.running = true → s.phase = .xAssert → s.seq = .cmd → got.length = 6 → i ≤ 7 → st ≠ 0xFF →
    reply.length = s.reqRlen.toNat → s.rx = got ++ List.replicate i 0xFF ++ st :: reply ++ rest →
    s.reqHasData = false ∨ st &&& 0xFE ≠ 0 →
    ∃ t, steps (9 + i + reply.length) s = .next t ∧ t.phase = .idle ∧ t.cs = false ∧ t.resultDelivered = true ∧
      t.result.kind = .ok ∧ t.result.status = st ∧ t.result.payload = reply ∧ t.rx = rest ∧
      t.trace = s.trace ++ [.cs true] ++ List.zipWith .xfer s.frameBuf.bytes got ++
        (List.replicate i 0xFF ++ st :: reply).map (.xfer 0xFF) ++ [.cs false] ∧
      sameInit s t

/-- R135, R141, R144, R151, R142, R143: a host CMD that writes its data, from the frame to the result: the response,
the data packet, an accepted token after `j` idle bytes, `b` busy bytes and the byte that ends the wait, all inside one
assertion of chip-select. -/
def Obligations.CmdWithDataWrite : Prop :=
  ∀ (s : State) (got got2 : List Byte) (i j b : Nat) (st tok x y z r : Byte) (reply rest : List Byte),
    s.Inv → s.running = true → s.phase = .xAssert → s.seq = .cmd → s.reqHasData = true →
    s.params.drtViaPoller = true → got.length = 6 → got2.length = s.dbuf.length + 3 → i ≤ 7 → j ≤ 7 →
    (∀ n, s.params.busyBound = some n → b < n) → st = 0x00 ∨ st = 0x01 → tok &&& 0x1F = 0x05 → r ≠ 0x00 →
    reply.length = s.reqRlen.toNat →
    s.rx = got ++ (List.replicate i 0xFF ++ st :: reply) ++ got2 ++ (List.replicate j 0xFF ++ [tok, x, y, z]) ++
      (List.replicate b 0x00 ++ r :: rest) →
    ∃ t, steps (7 + (i + 1 + reply.length) + (s.dbuf.length + 3) + (j + 4) + (b + 1) + 1) s = .next t ∧
      t.phase = .idle ∧ t.cs = false ∧ t.resultDelivered = true ∧ t.result.kind = .ok ∧ t.result.status = st ∧
      t.result.payload = reply ∧ t.rx = rest ∧
      t.trace = s.trace ++ [.cs true] ++ List.zipWith .xfer s.frameBuf.bytes got ++
        (List.replicate i 0xFF ++ st :: reply).map (.xfer 0xFF) ++
        List.zipWith .xfer
          (0xFE :: s.dbuf ++ [(crc16 s.dbuf).extractLsb' 8 8, (crc16 s.dbuf).extractLsb' 0 8]) got2 ++
        (List.replicate j 0xFF ++ [tok, x, y, z]).map (.xfer 0xFF) ++
        List.replicate b (.xfer 0xFF 0x00) ++ [.xfer 0xFF r] ++ [.cs false] ∧
      sameInit s t

/-! ### What follows an exchange -/

/-- R143: a host CMD, or the target command of an ACMD, returns its status and payload with kind Ok; `info` is a
free value (log entry 9). -/
def Obligations.CommandReturns : Prop :=
  ∀ s : State, s.running = true → s.phase = .xRelease → s.seq = .cmd ∨ s.seq = .acmdTarget →
    ∃ t, step s = .next t ∧ t.result.kind = .ok ∧ t.result.status = s.status ∧ t.result.payload = s.payload ∧
      t = { s with cs := false, trace := s.trace ++ [.cs false], result := t.result, resultDelivered := true,
                   phase := .idle, fresh := t.fresh }

/-- R153, R154: after CMD55 the target command follows whatever the status; only with ACMD_CHECK_PREFIX does an error
status end the ACMD as its normal result. -/
def Obligations.AcmdPrefixDiscarded : Prop :=
  ∀ s : State, s.running = true → s.phase = .xRelease → s.seq = .acmdPrefix →
    (s.params.acmdCheckPrefix = false ∨ s.status &&& 0xFE = 0 →
      step s = .next { s with
        cs := false, trace := s.trace ++ [.cs false], frameBuf := buildFrame s.reqId s.reqArg,
        crc7 := (buildFrame s.reqId s.reqArg).crc, seq := .acmdTarget, phase := .xAssert }) ∧
    (s.params.acmdCheckPrefix = true → s.status &&& 0xFE ≠ 0 →
      ∃ t, step s = .next t ∧ t.result.kind = .ok ∧ t.result.status = s.status ∧ t.result.payload = [] ∧
        t = { s with cs := false, trace := s.trace ++ [.cs false], result := t.result, resultDelivered := true,
                     phase := .idle, fresh := t.fresh })

/-- R162, R163: INIT after a CMD0 attempt: exactly 0x01 succeeds and CMD8 is next in S_IFCHECK; another status is
tried again below 16 attempts; the 16th failure is CardInitError with its status, recorded in S_FAILED (R171). -/
def Obligations.InitResetLoop : Prop :=
  ∀ s : State, s.running = true → s.phase = .xRelease → s.seq = .initCmd0 → s.reqOp = .init →
    (s.status = 0x01 → step s = .next { s with
      cs := false, trace := s.trace ++ [.cs false], retryCnt := s.retryCnt + 1, initState := .ifCheck,
      frameBuf := buildFrame 8 s.params.cmd8Arg, crc7 := (buildFrame 8 s.params.cmd8Arg).crc, seq := .initCmd8,
      phase := .xAssert }) ∧
    (s.status ≠ 0x01 → s.retryCnt + 1 ≠ 16 → step s = .next { s with
      cs := false, trace := s.trace ++ [.cs false], retryCnt := s.retryCnt + 1,
      frameBuf := ⟨0x40, 0x00, 0x00, 0x00, 0x00, 0x95⟩, crc7 := 0x4A, phase := .xAssert }) ∧
    (s.status ≠ 0x01 → s.retryCnt + 1 = 16 →
      ∃ t, step s = .next t ∧ t.result.kind = .cardInitError ∧ t.result.info = s.status ∧
        t = { s with cs := false, trace := s.trace ++ [.cs false], retryCnt := 16, initState := .failed,
                     failKind := .cardInitError, failInfo := s.status, result := t.result, resultDelivered := true,
                     phase := .idle, fresh := t.fresh })

/-- R165: the reply of CMD8 is compared with 00 00 00 1A byte for byte and the status is not tested: equal goes on to
CMD58 in S_OCRPOLL, anything else is UnsupportedCard with CMD8's status, recorded in S_FAILED (R171). -/
def Obligations.InitInterfaceCheck : Prop :=
  ∀ s : State, s.running = true → s.phase = .xRelease → s.seq = .initCmd8 → s.reqOp = .init →
    (s.payload = [0x00, 0x00, 0x00, 0x1A] → step s = .next { s with
      cs := false, trace := s.trace ++ [.cs false], initState := .ocrPoll,
      frameBuf := ⟨0x7A, 0x00, 0x00, 0x00, 0x00, 0xFD⟩, crc7 := 0x7E, seq := .initCmd58Pre, phase := .xAssert }) ∧
    (s.payload ≠ [0x00, 0x00, 0x00, 0x1A] →
      ∃ t, step s = .next t ∧ t.result.kind = .unsupportedCard ∧ t.result.info = s.status ∧
        t = { s with cs := false, trace := s.trace ++ [.cs false], initState := .failed,
                     failKind := .unsupportedCard, failInfo := s.status, result := t.result,
                     resultDelivered := true, phase := .idle, fresh := t.fresh })

/-- R166, R167, R169, R170: the first CMD58's payload is OCR_PRE and the ACMD41 loop starts with RETRY_CNT 0; the final
CMD58's payload is OCR_POST, and INIT ends in S_READY with kind Ok. Neither status nor payload is tested. -/
def Obligations.InitOcrReads : Prop :=
  ∀ s : State, s.running = true → s.phase = .xRelease →
    (s.seq = .initCmd58Pre → step s = .next { s with
      cs := false, trace := s.trace ++ [.cs false], ocrPre := some s.payload, retryCnt := 0,
      frameBuf := ⟨0x77, 0x00, 0x00, 0x00, 0x00, 0x65⟩, crc7 := 0x32, seq := .initCmd55, phase := .xAssert }) ∧
    (s.seq = .initCmd58Post →
      ∃ t, step s = .next t ∧ t.result.kind = .ok ∧
        t = { s with cs := false, trace := s.trace ++ [.cs false], ocrPost := some s.payload, initState := .ready,
                     result := t.result, resultDelivered := true, phase := .idle, fresh := t.fresh })

/-- R167, R168: INIT after CMD41: bit 0 clear, error bits or not, is ready and the final CMD58 is next; bit 0 set
tries again from CMD55 below 1024 iterations; the 1024th is CardInitError with its status (R171). -/
def Obligations.InitOcrPollLoop : Prop :=
  ∀ s : State, s.running = true → s.phase = .xRelease → s.seq = .initAcmd41 → s.reqOp = .init →
    (s.status &&& 0x01 = 0 → step s = .next { s with
      cs := false, trace := s.trace ++ [.cs false], retryCnt := s.retryCnt + 1,
      frameBuf := ⟨0x7A, 0x00, 0x00, 0x00, 0x00, 0xFD⟩, crc7 := 0x7E, seq := .initCmd58Post, phase := .xAssert }) ∧
    (s.status &&& 0x01 ≠ 0 → s.retryCnt + 1 ≠ 1024 → step s = .next { s with
      cs := false, trace := s.trace ++ [.cs false], retryCnt := s.retryCnt + 1,
      frameBuf := ⟨0x77, 0x00, 0x00, 0x00, 0x00, 0x65⟩, crc7 := 0x32, seq := .initCmd55, phase := .xAssert }) ∧
    (s.status &&& 0x01 ≠ 0 → s.retryCnt + 1 = 1024 →
      ∃ t, step s = .next t ∧ t.result.kind = .cardInitError ∧ t.result.info = s.status ∧
        t = { s with cs := false, trace := s.trace ++ [.cs false], retryCnt := 1024, initState := .failed,
                     failKind := .cardInitError, failInfo := s.status, result := t.result, resultDelivered := true,
                     phase := .idle, fresh := t.fresh })

/-- R153, R154, R167: the CMD55 of an ACMD41 iteration: without ACMD_CHECK_PREFIX, or with no error in its status,
CMD41 follows. With it an error status is the iteration's status (the model's reading, log entry 27): bit 0 clear is
ready, bit 0 set tries again below 1024 iterations and is CardInitError at the 1024th. -/
def Obligations.InitPrefix : Prop :=
  ∀ s : State, s.running = true → s.phase = .xRelease → s.seq = .initCmd55 → s.reqOp = .init →
    (s.params.acmdCheckPrefix = false ∨ s.status &&& 0xFE = 0 → step s = .next { s with
      cs := false, trace := s.trace ++ [.cs false], frameBuf := buildFrame 41 s.params.acmd41Arg,
      crc7 := (buildFrame 41 s.params.acmd41Arg).crc, seq := .initAcmd41, phase := .xAssert }) ∧
    (s.params.acmdCheckPrefix = true → s.status &&& 0xFE ≠ 0 → s.status &&& 0x01 = 0 → step s = .next { s with
      cs := false, trace := s.trace ++ [.cs false], retryCnt := s.retryCnt + 1,
      frameBuf := ⟨0x7A, 0x00, 0x00, 0x00, 0x00, 0xFD⟩, crc7 := 0x7E, seq := .initCmd58Post, phase := .xAssert }) ∧
    (s.params.acmdCheckPrefix = true → s.status &&& 0xFE ≠ 0 → s.status &&& 0x01 ≠ 0 → s.retryCnt + 1 ≠ 1024 →
      step s = .next { s with
        cs := false, trace := s.trace ++ [.cs false], retryCnt := s.retryCnt + 1,
        frameBuf := ⟨0x77, 0x00, 0x00, 0x00, 0x00, 0x65⟩, crc7 := 0x32, phase := .xAssert }) ∧
    (s.params.acmdCheckPrefix = true → s.status &&& 0xFE ≠ 0 → s.status &&& 0x01 ≠ 0 → s.retryCnt + 1 = 1024 →
      ∃ t, step s = .next t ∧ t.result.kind = .cardInitError ∧ t.result.info = s.status ∧
        t = { s with cs := false, trace := s.trace ++ [.cs false], retryCnt := 1024, initState := .failed,
                     failKind := .cardInitError, failInfo := s.status, result := t.result, resultDelivered := true,
                     phase := .idle, fresh := t.fresh })

/-- R185, R186: after CMD16 an error status ends LOCKUNLOCK at once as its normal result; otherwise CMD42 is next. -/
def Obligations.LockBlockLengthCheck : Prop :=
  ∀ s : State, s.running = true → s.phase = .xRelease → s.seq = .lockCmd16 →
    (s.status &&& 0xFE ≠ 0 →
      ∃ t, step s = .next t ∧ t.result.kind = .ok ∧ t.result.status = s.status ∧ t.result.payload = [] ∧
        t = { s with cs := false, trace := s.trace ++ [.cs false], result := t.result, resultDelivered := true,
                     phase := .idle, fresh := t.fresh }) ∧
    (s.status &&& 0xFE = 0 → step s = .next { s with
      cs := false, trace := s.trace ++ [.cs false], frameBuf := ⟨0x6A, 0x00, 0x00, 0x00, 0x00, 0x51⟩, crc7 := 0x28,
      seq := .lockCmd42, phase := .xAssert })

/-- R186, R187, R188: CMD42's status is not examined; CMD55's is discarded (with ACMD_CHECK_PREFIX an error status ends
ACMD13, and so LOCKUNLOCK, with that status, log entry 27); CMD13's status is the result, its reply byte dropped. -/
def Obligations.LockConfirmation : Prop :=
  ∀ s : State, s.running = true → s.phase = .xRelease →
    (s.seq = .lockCmd42 → step s = .next { s with
      cs := false, trace := s.trace ++ [.cs false], frameBuf := ⟨0x77, 0x00, 0x00, 0x00, 0x00, 0x65⟩, crc7 := 0x32,
      seq := .lockCmd55, phase := .xAssert }) ∧
    (s.seq = .lockCmd55 → s.params.acmdCheckPrefix = false ∨ s.status &&& 0xFE = 0 → step s = .next { s with
      cs := false, trace := s.trace ++ [.cs false], frameBuf := ⟨0x4D, 0x00, 0x00, 0x00, 0x00, 0x0D⟩, crc7 := 0x06,
      seq := .lockAcmd13, phase := .xAssert }) ∧
    (s.seq = .lockCmd55 → s.params.acmdCheckPrefix = true → s.status &&& 0xFE ≠ 0 →
      ∃ t, step s = .next t ∧ t.result.kind = .ok ∧ t.result.status = s.status ∧ t.result.payload = [] ∧
        t = { s with cs := false, trace := s.trace ++ [.cs false], result := t.result, resultDelivered := true,
                     phase := .idle, fresh := t.fresh }) ∧
    (s.seq = .lockAcmd13 →
      ∃ t, step s = .next t ∧ t.result.kind = .ok ∧ t.result.status = s.status ∧ t.result.payload = [] ∧
        t = { s with cs := false, trace := s.trace ++ [.cs false], result := t.result, resultDelivered := true,
                     phase := .idle, fresh := t.fresh })

/-- R208, R171: raising an error. With chip-select asserted its release is the next event, and the last, and the rest
of the raise follows it; with chip-select released INIT records the error, RESULT holds the kind and the info byte,
and the engine waits for the host. Nothing else changes, and nothing is saved. -/
def Obligations.ErrorEntry : Prop :=
  (∀ (s : State) (k : Kind) (info : Byte), s.cs = true → s.raise k info = { s with phase := .xReleaseErr k info }) ∧
  (∀ (s : State) (k : Kind) (info : Byte), s.running = true → s.phase = .xReleaseErr k info →
    step s = .next (State.raise k info { s with cs := false, trace := s.trace ++ [.cs false] })) ∧
  (∀ (s : State) (k : Kind) (info : Byte), s.cs = false →
    (s.raise k info).result.kind = k ∧ (s.raise k info).result.info = info ∧
    (s.reqOp = .init → s.raise k info = { s with
      initState := .failed, failKind := k, failInfo := info, result := (s.raise k info).result,
      resultDelivered := true, phase := .idle, fresh := (s.raise k info).fresh }) ∧
    (s.reqOp ≠ .init → s.raise k info = { s with
      result := (s.raise k info).result, resultDelivered := true, phase := .idle,
      fresh := (s.raise k info).fresh }))

/-! ### The whole machine -/

/-- The invariant holds right after reset. -/
def Obligations.InvHoldsAtReset : Prop := State.reset.Inv

/-- Every step keeps the invariant, from every state that has it. -/
def Obligations.StepKeepsInv : Prop :=
  ∀ s t : State, s.Inv → step s = .next t → t.Inv

/-- R31, R142, D33: an invariant with no premise about the rest of the state: whatever the state, as long as its trace
is well bracketed up to the chip-select level and the level is the phase's, so is the next state's. -/
def Obligations.ChipSelectBracketing : Prop :=
  ∀ s t : State, s.cs = s.phase.selected → replayCS s.trace false = some s.cs → step s = .next t →
    t.cs = t.phase.selected ∧ replayCS t.trace false = some t.cs

/-- A state that has the invariant never faults and is never refused: every step answers a next state. -/
def Obligations.InvStateNeverStops : Prop :=
  ∀ s : State, s.Inv → ∃ t, step s = .next t

/-- R30: the label table. From each label the engine makes exactly the event of the label's row (none at IDLE) and
leaves only to the labels of its row; D_DATA goes through DBUF in index order; and X_POLL leaves directly to X_RELEASE
or to D_START only when no reply byte is left to collect, to the second exactly when data is to be written. (When
the other paths are taken is not said here. What holds in a state at a bracketed label or at an error release is part
of the invariant that StepKeepsInv keeps.) -/
def Obligations.PhaseTable : Prop :=
  ∀ s t : State, s.Inv → s.running = true → step s = .next t →
    t.trace = s.trace ++ s.nextEvents ∧ s.phase.leavesTo t.phase = true ∧ (s.phase = .dStart → t.dptr = 0) ∧
    (s.phase = .dData → t.dptr = s.dptr + 1 ∧ (t.phase = .dData ↔ s.dptr + 1 < s.dbuf.length)) ∧
    (s.phase = .xPoll → t.phase = .xRelease → s.xRlen = 0 ∧ (t.error = true ∨ s.xHasData = false)) ∧
    (s.phase = .xPoll → t.phase = .dStart → s.xRlen = 0 ∧ t.error = false ∧ s.xHasData = true)

/-- R25, R241: from acceptance to the result the request registers and DBUF do not change, and a waiting request is
neither taken nor does it change anything. -/
def Obligations.RequestIsStable : Prop :=
  ∀ s t : State, s.Inv → s.resetPin = false → s.phase ≠ .idle → step s = .next t →
    sameRequest s t ∧ t.hostPort = s.hostPort ∧
    ∀ q : List Request, step { s with hostPort := q } = .next { t with hostPort := q }

/-- R21, R173, R34: INIT_STATE, FAIL_KIND, FAIL_INFO, OCR_PRE and OCR_POST are written only by INIT and by reset: no step
of another operation, and no acceptance or refusal of another request, changes them. -/
def Obligations.OnlyInitWritesInitState : Prop :=
  ∀ s t : State, s.Inv → s.resetPin = false → step s = .next t →
    (s.phase ≠ .idle → s.reqOp ≠ .init → sameInit s t) ∧
    (s.phase = .idle → (∀ r rest, s.hostPort = r :: rest → r.op ≠ 0b10) → sameInit s t)

/-- R24, R34: RESULT is written only by the step that ends an operation, which leaves PHASE at IDLE; before that, and
while nothing is requested, it keeps its content. -/
def Obligations.ResultWrittenAtTheEnd : Prop :=
  ∀ s t : State, s.Inv → s.resetPin = false → step s = .next t →
    (t.phase ≠ .idle → sameResult s t) ∧ (s.phase = .idle → s.hostPort = [] → sameResult s t) ∧
    (s.phase ≠ .idle → t.phase = .idle → t.resultDelivered = true)

/-- R204, R202: which operation can end with which kind; a request that is refused at IDLE is not INIT's. -/
def Obligations.ResultKinds : Prop :=
  ∀ s t : State, s.Inv → s.resetPin = false → step s = .next t → t.phase = .idle →
    (s.phase ≠ .idle →
      canEndWith s.reqOp s.reqHasData s.params.busyBound.isSome t.result.kind = true ∧ t.result.kind ≠ .refused) ∧
    (∀ r rest, s.phase = .idle → s.hostPort = r :: rest → t.result.kind = .refused ∧ r.op ≠ 0b10)

/-- R54: a byte received while the engine transmits a meaningful byte affects nothing but the record of the transfer:
the next states under two such bytes are equal but for the trace. -/
def Obligations.ReceivedBytesDiscarded : Prop :=
  ∀ (s : State) (a b : Byte) (rest : List Byte), s.Inv → s.running = true →
    (∃ i, s.phase = .xTx i) ∨ s.phase = .dStart ∨ s.phase = .dData ∨ (∃ k, s.phase = .dCrc k) →
    ∃ t u, step { s with rx := a :: rest } = .next t ∧ step { s with rx := b :: rest } = .next u ∧
      { t with trace := [] } = { u with trace := [] }

/-- R8, R37: the parameters never change, not even at reset. -/
def Obligations.ParametersNeverChange : Prop :=
  ∀ s t : State, step s = .next t → t.params = s.params

/-- R23, R34, R21, R24: the host's reads: INIT_STATE and readiness always; an OCR register when it holds 4 bytes,
`none` being a fault; the failure registers in S_FAILED; RESULT at IDLE after a result. The faults of the last two are
the model's form of "no meaning" (U11), log entry 25. -/
def Obligations.HostReads : Prop :=
  ∀ s : State,
    hostRead .initState s = .ok (.initState s.initState) ∧
    hostRead .ready s = .ok (.ready (decide (s.phase = .idle))) ∧
    hostRead .parameters s = .ok (.parameters s.params) ∧
    (∀ v, s.ocrPre = some v → hostRead .ocrPre s = .ok (.bytes v)) ∧
    (s.ocrPre = none → hostRead .ocrPre s = .error .ocrNotCaptured) ∧
    (∀ v, s.ocrPost = some v → hostRead .ocrPost s = .ok (.bytes v)) ∧
    (s.ocrPost = none → hostRead .ocrPost s = .error .ocrNotCaptured) ∧
    (s.initState = .failed → hostRead .failKind s = .ok (.kind s.failKind) ∧
      hostRead .failInfo s = .ok (.byte s.failInfo)) ∧
    (s.initState ≠ .failed → hostRead .failKind s = .error .noFailureHeld ∧
      hostRead .failInfo s = .error .noFailureHeld) ∧
    (s.phase = .idle → s.resultDelivered = true → hostRead .result s = .ok (.result s.result)) ∧
    (s.phase = .idle → s.resultDelivered = false → hostRead .result s = .error .noResultDelivered) ∧
    (s.phase ≠ .idle → hostRead .result s = .error .operationInProgress)

/-- R24, R143, R188: RESULT's payload is the reply of CMD, or of the target command of ACMD, `responseLen` bytes, when
the operation ends normally there; a refused request, LOCKUNLOCK and an ACMD that ends at its CMD55 leave it empty. That
it is empty also after an error (R208) and after INIT (R170), where those rules give it no meaning and R24 says
"otherwise empty", is the model's reading, log entry 26. -/
def Obligations.ResultPayload : Prop :=
  ∀ s t : State, s.Inv → s.resetPin = false → step s = .next t → t.phase = .idle →
    (s.phase ≠ .idle → t.result.kind = .ok → s.seq = .cmd ∨ s.seq = .acmdTarget →
      t.result.payload = s.payload ∧ t.result.payload.length = s.reqRlen.toNat) ∧
    (s.phase ≠ .idle → t.result.kind ≠ .ok ∨ (s.seq ≠ .cmd ∧ s.seq ≠ .acmdTarget) → t.result.payload = []) ∧
    (s.phase = .idle → s.hostPort ≠ [] → t.result.payload = [])
end

