-- ==== Sys2Proof/Laws/State.lean ====
section
/-! SUPPORT. What each named update of the state does to each field: one lemma per field per update, true by
definition, so that no proof unfolds a record update. -/

namespace Sys2Proof.Machine

variable (s : State)

/-! `consumeRx` -/

@[simp] theorem State.consumeRx_phase : s.consumeRx.phase = s.phase := rfl
@[simp] theorem State.consumeRx_cs : s.consumeRx.cs = s.cs := rfl
@[simp] theorem State.consumeRx_initState : s.consumeRx.initState = s.initState := rfl
@[simp] theorem State.consumeRx_failKind : s.consumeRx.failKind = s.failKind := rfl
@[simp] theorem State.consumeRx_failInfo : s.consumeRx.failInfo = s.failInfo := rfl
@[simp] theorem State.consumeRx_ocrPre : s.consumeRx.ocrPre = s.ocrPre := rfl
@[simp] theorem State.consumeRx_ocrPost : s.consumeRx.ocrPost = s.ocrPost := rfl
@[simp] theorem State.consumeRx_result : s.consumeRx.result = s.result := rfl
@[simp] theorem State.consumeRx_resultDelivered : s.consumeRx.resultDelivered = s.resultDelivered := rfl
@[simp] theorem State.consumeRx_reqOp : s.consumeRx.reqOp = s.reqOp := rfl
@[simp] theorem State.consumeRx_reqId : s.consumeRx.reqId = s.reqId := rfl
@[simp] theorem State.consumeRx_reqArg : s.consumeRx.reqArg = s.reqArg := rfl
@[simp] theorem State.consumeRx_reqRlen : s.consumeRx.reqRlen = s.reqRlen := rfl
@[simp] theorem State.consumeRx_reqHasData : s.consumeRx.reqHasData = s.reqHasData := rfl
@[simp] theorem State.consumeRx_reqLockOp : s.consumeRx.reqLockOp = s.reqLockOp := rfl
@[simp] theorem State.consumeRx_reqOld : s.consumeRx.reqOld = s.reqOld := rfl
@[simp] theorem State.consumeRx_reqNew : s.consumeRx.reqNew = s.reqNew := rfl
@[simp] theorem State.consumeRx_dbuf : s.consumeRx.dbuf = s.dbuf := rfl
@[simp] theorem State.consumeRx_frameBuf : s.consumeRx.frameBuf = s.frameBuf := rfl
@[simp] theorem State.consumeRx_crc7 : s.consumeRx.crc7 = s.crc7 := rfl
@[simp] theorem State.consumeRx_crc16 : s.consumeRx.crc16 = s.crc16 := rfl
@[simp] theorem State.consumeRx_idleCnt : s.consumeRx.idleCnt = s.idleCnt := rfl
@[simp] theorem State.consumeRx_retryCnt : s.consumeRx.retryCnt = s.retryCnt := rfl
@[simp] theorem State.consumeRx_busyCnt : s.consumeRx.busyCnt = s.busyCnt := rfl
@[simp] theorem State.consumeRx_status : s.consumeRx.status = s.status := rfl
@[simp] theorem State.consumeRx_error : s.consumeRx.error = s.error := rfl
@[simp] theorem State.consumeRx_token : s.consumeRx.token = s.token := rfl
@[simp] theorem State.consumeRx_rbuf : s.consumeRx.rbuf = s.rbuf := rfl
@[simp] theorem State.consumeRx_rleft : s.consumeRx.rleft = s.rleft := rfl
@[simp] theorem State.consumeRx_dptr : s.consumeRx.dptr = s.dptr := rfl
@[simp] theorem State.consumeRx_seq : s.consumeRx.seq = s.seq := rfl
@[simp] theorem State.consumeRx_xRlen : s.consumeRx.xRlen = s.xRlen := rfl
@[simp] theorem State.consumeRx_xHasData : s.consumeRx.xHasData = s.xHasData := rfl
@[simp] theorem State.consumeRx_payload : s.consumeRx.payload = s.payload := rfl
@[simp] theorem State.consumeRx_params : s.consumeRx.params = s.params := rfl
@[simp] theorem State.consumeRx_hostPort : s.consumeRx.hostPort = s.hostPort := rfl
@[simp] theorem State.consumeRx_rx : s.consumeRx.rx = s.rx.tail := rfl
@[simp] theorem State.consumeRx_resetPin : s.consumeRx.resetPin = s.resetPin := rfl
@[simp] theorem State.consumeRx_stalled : s.consumeRx.stalled = s.stalled := rfl
@[simp] theorem State.consumeRx_trace : s.consumeRx.trace = s.trace := rfl
@[simp] theorem State.consumeRx_fresh : s.consumeRx.fresh = if s.rx = [] then s.fresh + 1 else s.fresh := rfl

/-! `xferAs` -/

@[simp] theorem State.xferAs_phase (t r : Byte) : (s.xferAs t r).phase = s.phase := rfl
@[simp] theorem State.xferAs_cs (t r : Byte) : (s.xferAs t r).cs = s.cs := rfl
@[simp] theorem State.xferAs_initState (t r : Byte) : (s.xferAs t r).initState = s.initState := rfl
@[simp] theorem State.xferAs_failKind (t r : Byte) : (s.xferAs t r).failKind = s.failKind := rfl
@[simp] theorem State.xferAs_failInfo (t r : Byte) : (s.xferAs t r).failInfo = s.failInfo := rfl
@[simp] theorem State.xferAs_ocrPre (t r : Byte) : (s.xferAs t r).ocrPre = s.ocrPre := rfl
@[simp] theorem State.xferAs_ocrPost (t r : Byte) : (s.xferAs t r).ocrPost = s.ocrPost := rfl
@[simp] theorem State.xferAs_result (t r : Byte) : (s.xferAs t r).result = s.result := rfl
@[simp] theorem State.xferAs_resultDelivered (t r : Byte) : (s.xferAs t r).resultDelivered = s.resultDelivered := rfl
@[simp] theorem State.xferAs_reqOp (t r : Byte) : (s.xferAs t r).reqOp = s.reqOp := rfl
@[simp] theorem State.xferAs_reqId (t r : Byte) : (s.xferAs t r).reqId = s.reqId := rfl
@[simp] theorem State.xferAs_reqArg (t r : Byte) : (s.xferAs t r).reqArg = s.reqArg := rfl
@[simp] theorem State.xferAs_reqRlen (t r : Byte) : (s.xferAs t r).reqRlen = s.reqRlen := rfl
@[simp] theorem State.xferAs_reqHasData (t r : Byte) : (s.xferAs t r).reqHasData = s.reqHasData := rfl
@[simp] theorem State.xferAs_reqLockOp (t r : Byte) : (s.xferAs t r).reqLockOp = s.reqLockOp := rfl
@[simp] theorem State.xferAs_reqOld (t r : Byte) : (s.xferAs t r).reqOld = s.reqOld := rfl
@[simp] theorem State.xferAs_reqNew (t r : Byte) : (s.xferAs t r).reqNew = s.reqNew := rfl
@[simp] theorem State.xferAs_dbuf (t r : Byte) : (s.xferAs t r).dbuf = s.dbuf := rfl
@[simp] theorem State.xferAs_frameBuf (t r : Byte) : (s.xferAs t r).frameBuf = s.frameBuf := rfl
@[simp] theorem State.xferAs_crc7 (t r : Byte) : (s.xferAs t r).crc7 = s.crc7 := rfl
@[simp] theorem State.xferAs_crc16 (t r : Byte) : (s.xferAs t r).crc16 = s.crc16 := rfl
@[simp] theorem State.xferAs_idleCnt (t r : Byte) : (s.xferAs t r).idleCnt = s.idleCnt := rfl
@[simp] theorem State.xferAs_retryCnt (t r : Byte) : (s.xferAs t r).retryCnt = s.retryCnt := rfl
@[simp] theorem State.xferAs_busyCnt (t r : Byte) : (s.xferAs t r).busyCnt = s.busyCnt := rfl
@[simp] theorem State.xferAs_status (t r : Byte) : (s.xferAs t r).status = s.status := rfl
@[simp] theorem State.xferAs_error (t r : Byte) : (s.xferAs t r).error = s.error := rfl
@[simp] theorem State.xferAs_token (t r : Byte) : (s.xferAs t r).token = s.token := rfl
@[simp] theorem State.xferAs_rbuf (t r : Byte) : (s.xferAs t r).rbuf = s.rbuf := rfl
@[simp] theorem State.xferAs_rleft (t r : Byte) : (s.xferAs t r).rleft = s.rleft := rfl
@[simp] theorem State.xferAs_dptr (t r : Byte) : (s.xferAs t r).dptr = s.dptr := rfl
@[simp] theorem State.xferAs_seq (t r : Byte) : (s.xferAs t r).seq = s.seq := rfl
@[simp] theorem State.xferAs_xRlen (t r : Byte) : (s.xferAs t r).xRlen = s.xRlen := rfl
@[simp] theorem State.xferAs_xHasData (t r : Byte) : (s.xferAs t r).xHasData = s.xHasData := rfl
@[simp] theorem State.xferAs_payload (t r : Byte) : (s.xferAs t r).payload = s.payload := rfl
@[simp] theorem State.xferAs_params (t r : Byte) : (s.xferAs t r).params = s.params := rfl
@[simp] theorem State.xferAs_hostPort (t r : Byte) : (s.xferAs t r).hostPort = s.hostPort := rfl
@[simp] theorem State.xferAs_rx (t r : Byte) : (s.xferAs t r).rx = s.rx.tail := rfl
@[simp] theorem State.xferAs_resetPin (t r : Byte) : (s.xferAs t r).resetPin = s.resetPin := rfl
@[simp] theorem State.xferAs_stalled (t r : Byte) : (s.xferAs t r).stalled = s.stalled := rfl
@[simp] theorem State.xferAs_trace (t r : Byte) : (s.xferAs t r).trace = s.trace ++ [.xfer t r] := rfl
@[simp] theorem State.xferAs_fresh (t r : Byte) : (s.xferAs t r).fresh = if s.rx = [] then s.fresh + 1 else s.fresh := rfl

/-! `xfer` -/

@[simp] theorem State.xfer_phase (t : Byte) : (s.xfer t).phase = s.phase := rfl
@[simp] theorem State.xfer_cs (t : Byte) : (s.xfer t).cs = s.cs := rfl
@[simp] theorem State.xfer_initState (t : Byte) : (s.xfer t).initState = s.initState := rfl
@[simp] theorem State.xfer_failKind (t : Byte) : (s.xfer t).failKind = s.failKind := rfl
@[simp] theorem State.xfer_failInfo (t : Byte) : (s.xfer t).failInfo = s.failInfo := rfl
@[simp] theorem State.xfer_ocrPre (t : Byte) : (s.xfer t).ocrPre = s.ocrPre := rfl
@[simp] theorem State.xfer_ocrPost (t : Byte) : (s.xfer t).ocrPost = s.ocrPost := rfl
@[simp] theorem State.xfer_result (t : Byte) : (s.xfer t).result = s.result := rfl
@[simp] theorem State.xfer_resultDelivered (t : Byte) : (s.xfer t).resultDelivered = s.resultDelivered := rfl
@[simp] theorem State.xfer_reqOp (t : Byte) : (s.xfer t).reqOp = s.reqOp := rfl
@[simp] theorem State.xfer_reqId (t : Byte) : (s.xfer t).reqId = s.reqId := rfl
@[simp] theorem State.xfer_reqArg (t : Byte) : (s.xfer t).reqArg = s.reqArg := rfl
@[simp] theorem State.xfer_reqRlen (t : Byte) : (s.xfer t).reqRlen = s.reqRlen := rfl
@[simp] theorem State.xfer_reqHasData (t : Byte) : (s.xfer t).reqHasData = s.reqHasData := rfl
@[simp] theorem State.xfer_reqLockOp (t : Byte) : (s.xfer t).reqLockOp = s.reqLockOp := rfl
@[simp] theorem State.xfer_reqOld (t : Byte) : (s.xfer t).reqOld = s.reqOld := rfl
@[simp] theorem State.xfer_reqNew (t : Byte) : (s.xfer t).reqNew = s.reqNew := rfl
@[simp] theorem State.xfer_dbuf (t : Byte) : (s.xfer t).dbuf = s.dbuf := rfl
@[simp] theorem State.xfer_frameBuf (t : Byte) : (s.xfer t).frameBuf = s.frameBuf := rfl
@[simp] theorem State.xfer_crc7 (t : Byte) : (s.xfer t).crc7 = s.crc7 := rfl
@[simp] theorem State.xfer_crc16 (t : Byte) : (s.xfer t).crc16 = s.crc16 := rfl
@[simp] theorem State.xfer_idleCnt (t : Byte) : (s.xfer t).idleCnt = s.idleCnt := rfl
@[simp] theorem State.xfer_retryCnt (t : Byte) : (s.xfer t).retryCnt = s.retryCnt := rfl
@[simp] theorem State.xfer_busyCnt (t : Byte) : (s.xfer t).busyCnt = s.busyCnt := rfl
@[simp] theorem State.xfer_status (t : Byte) : (s.xfer t).status = s.status := rfl
@[simp] theorem State.xfer_error (t : Byte) : (s.xfer t).error = s.error := rfl
@[simp] theorem State.xfer_token (t : Byte) : (s.xfer t).token = s.token := rfl
@[simp] theorem State.xfer_rbuf (t : Byte) : (s.xfer t).rbuf = s.rbuf := rfl
@[simp] theorem State.xfer_rleft (t : Byte) : (s.xfer t).rleft = s.rleft := rfl
@[simp] theorem State.xfer_dptr (t : Byte) : (s.xfer t).dptr = s.dptr := rfl
@[simp] theorem State.xfer_seq (t : Byte) : (s.xfer t).seq = s.seq := rfl
@[simp] theorem State.xfer_xRlen (t : Byte) : (s.xfer t).xRlen = s.xRlen := rfl
@[simp] theorem State.xfer_xHasData (t : Byte) : (s.xfer t).xHasData = s.xHasData := rfl
@[simp] theorem State.xfer_payload (t : Byte) : (s.xfer t).payload = s.payload := rfl
@[simp] theorem State.xfer_params (t : Byte) : (s.xfer t).params = s.params := rfl
@[simp] theorem State.xfer_hostPort (t : Byte) : (s.xfer t).hostPort = s.hostPort := rfl
@[simp] theorem State.xfer_rx (t : Byte) : (s.xfer t).rx = s.rx.tail := rfl
@[simp] theorem State.xfer_resetPin (t : Byte) : (s.xfer t).resetPin = s.resetPin := rfl
@[simp] theorem State.xfer_stalled (t : Byte) : (s.xfer t).stalled = s.stalled := rfl
@[simp] theorem State.xfer_trace (t : Byte) : (s.xfer t).trace = s.trace ++ [.xfer t s.rxByte] := rfl
@[simp] theorem State.xfer_fresh (t : Byte) : (s.xfer t).fresh = if s.rx = [] then s.fresh + 1 else s.fresh := rfl

/-! `setCS` -/

@[simp] theorem State.setCS_phase (b : Bool) : (s.setCS b).phase = s.phase := rfl
@[simp] theorem State.setCS_cs (b : Bool) : (s.setCS b).cs = b := rfl
@[simp] theorem State.setCS_initState (b : Bool) : (s.setCS b).initState = s.initState := rfl
@[simp] theorem State.setCS_failKind (b : Bool) : (s.setCS b).failKind = s.failKind := rfl
@[simp] theorem State.setCS_failInfo (b : Bool) : (s.setCS b).failInfo = s.failInfo := rfl
@[simp] theorem State.setCS_ocrPre (b : Bool) : (s.setCS b).ocrPre = s.ocrPre := rfl
@[simp] theorem State.setCS_ocrPost (b : Bool) : (s.setCS b).ocrPost = s.ocrPost := rfl
@[simp] theorem State.setCS_result (b : Bool) : (s.setCS b).result = s.result := rfl
@[simp] theorem State.setCS_resultDelivered (b : Bool) : (s.setCS b).resultDelivered = s.resultDelivered := rfl
@[simp] theorem State.setCS_reqOp (b : Bool) : (s.setCS b).reqOp = s.reqOp := rfl
@[simp] theorem State.setCS_reqId (b : Bool) : (s.setCS b).reqId = s.reqId := rfl
@[simp] theorem State.setCS_reqArg (b : Bool) : (s.setCS b).reqArg = s.reqArg := rfl
@[simp] theorem State.setCS_reqRlen (b : Bool) : (s.setCS b).reqRlen = s.reqRlen := rfl
@[simp] theorem State.setCS_reqHasData (b : Bool) : (s.setCS b).reqHasData = s.reqHasData := rfl
@[simp] theorem State.setCS_reqLockOp (b : Bool) : (s.setCS b).reqLockOp = s.reqLockOp := rfl
@[simp] theorem State.setCS_reqOld (b : Bool) : (s.setCS b).reqOld = s.reqOld := rfl
@[simp] theorem State.setCS_reqNew (b : Bool) : (s.setCS b).reqNew = s.reqNew := rfl
@[simp] theorem State.setCS_dbuf (b : Bool) : (s.setCS b).dbuf = s.dbuf := rfl
@[simp] theorem State.setCS_frameBuf (b : Bool) : (s.setCS b).frameBuf = s.frameBuf := rfl
@[simp] theorem State.setCS_crc7 (b : Bool) : (s.setCS b).crc7 = s.crc7 := rfl
@[simp] theorem State.setCS_crc16 (b : Bool) : (s.setCS b).crc16 = s.crc16 := rfl
@[simp] theorem State.setCS_idleCnt (b : Bool) : (s.setCS b).idleCnt = s.idleCnt := rfl
@[simp] theorem State.setCS_retryCnt (b : Bool) : (s.setCS b).retryCnt = s.retryCnt := rfl
@[simp] theorem State.setCS_busyCnt (b : Bool) : (s.setCS b).busyCnt = s.busyCnt := rfl
@[simp] theorem State.setCS_status (b : Bool) : (s.setCS b).status = s.status := rfl
@[simp] theorem State.setCS_error (b : Bool) : (s.setCS b).error = s.error := rfl
@[simp] theorem State.setCS_token (b : Bool) : (s.setCS b).token = s.token := rfl
@[simp] theorem State.setCS_rbuf (b : Bool) : (s.setCS b).rbuf = s.rbuf := rfl
@[simp] theorem State.setCS_rleft (b : Bool) : (s.setCS b).rleft = s.rleft := rfl
@[simp] theorem State.setCS_dptr (b : Bool) : (s.setCS b).dptr = s.dptr := rfl
@[simp] theorem State.setCS_seq (b : Bool) : (s.setCS b).seq = s.seq := rfl
@[simp] theorem State.setCS_xRlen (b : Bool) : (s.setCS b).xRlen = s.xRlen := rfl
@[simp] theorem State.setCS_xHasData (b : Bool) : (s.setCS b).xHasData = s.xHasData := rfl
@[simp] theorem State.setCS_payload (b : Bool) : (s.setCS b).payload = s.payload := rfl
@[simp] theorem State.setCS_params (b : Bool) : (s.setCS b).params = s.params := rfl
@[simp] theorem State.setCS_hostPort (b : Bool) : (s.setCS b).hostPort = s.hostPort := rfl
@[simp] theorem State.setCS_rx (b : Bool) : (s.setCS b).rx = s.rx := rfl
@[simp] theorem State.setCS_resetPin (b : Bool) : (s.setCS b).resetPin = s.resetPin := rfl
@[simp] theorem State.setCS_stalled (b : Bool) : (s.setCS b).stalled = s.stalled := rfl
@[simp] theorem State.setCS_trace (b : Bool) : (s.setCS b).trace = s.trace ++ [.cs b] := rfl
@[simp] theorem State.setCS_fresh (b : Bool) : (s.setCS b).fresh = s.fresh := rfl

/-! `goto` -/

@[simp] theorem State.goto_phase (p : Phase) : (s.goto p).phase = p := rfl
@[simp] theorem State.goto_cs (p : Phase) : (s.goto p).cs = s.cs := rfl
@[simp] theorem State.goto_initState (p : Phase) : (s.goto p).initState = s.initState := rfl
@[simp] theorem State.goto_failKind (p : Phase) : (s.goto p).failKind = s.failKind := rfl
@[simp] theorem State.goto_failInfo (p : Phase) : (s.goto p).failInfo = s.failInfo := rfl
@[simp] theorem State.goto_ocrPre (p : Phase) : (s.goto p).ocrPre = s.ocrPre := rfl
@[simp] theorem State.goto_ocrPost (p : Phase) : (s.goto p).ocrPost = s.ocrPost := rfl
@[simp] theorem State.goto_result (p : Phase) : (s.goto p).result = s.result := rfl
@[simp] theorem State.goto_resultDelivered (p : Phase) : (s.goto p).resultDelivered = s.resultDelivered := rfl
@[simp] theorem State.goto_reqOp (p : Phase) : (s.goto p).reqOp = s.reqOp := rfl
@[simp] theorem State.goto_reqId (p : Phase) : (s.goto p).reqId = s.reqId := rfl
@[simp] theorem State.goto_reqArg (p : Phase) : (s.goto p).reqArg = s.reqArg := rfl
@[simp] theorem State.goto_reqRlen (p : Phase) : (s.goto p).reqRlen = s.reqRlen := rfl
@[simp] theorem State.goto_reqHasData (p : Phase) : (s.goto p).reqHasData = s.reqHasData := rfl
@[simp] theorem State.goto_reqLockOp (p : Phase) : (s.goto p).reqLockOp = s.reqLockOp := rfl
@[simp] theorem State.goto_reqOld (p : Phase) : (s.goto p).reqOld = s.reqOld := rfl
@[simp] theorem State.goto_reqNew (p : Phase) : (s.goto p).reqNew = s.reqNew := rfl
@[simp] theorem State.goto_dbuf (p : Phase) : (s.goto p).dbuf = s.dbuf := rfl
@[simp] theorem State.goto_frameBuf (p : Phase) : (s.goto p).frameBuf = s.frameBuf := rfl
@[simp] theorem State.goto_crc7 (p : Phase) : (s.goto p).crc7 = s.crc7 := rfl
@[simp] theorem State.goto_crc16 (p : Phase) : (s.goto p).crc16 = s.crc16 := rfl
@[simp] theorem State.goto_idleCnt (p : Phase) : (s.goto p).idleCnt = s.idleCnt := rfl
@[simp] theorem State.goto_retryCnt (p : Phase) : (s.goto p).retryCnt = s.retryCnt := rfl
@[simp] theorem State.goto_busyCnt (p : Phase) : (s.goto p).busyCnt = s.busyCnt := rfl
@[simp] theorem State.goto_status (p : Phase) : (s.goto p).status = s.status := rfl
@[simp] theorem State.goto_error (p : Phase) : (s.goto p).error = s.error := rfl
@[simp] theorem State.goto_token (p : Phase) : (s.goto p).token = s.token := rfl
@[simp] theorem State.goto_rbuf (p : Phase) : (s.goto p).rbuf = s.rbuf := rfl
@[simp] theorem State.goto_rleft (p : Phase) : (s.goto p).rleft = s.rleft := rfl
@[simp] theorem State.goto_dptr (p : Phase) : (s.goto p).dptr = s.dptr := rfl
@[simp] theorem State.goto_seq (p : Phase) : (s.goto p).seq = s.seq := rfl
@[simp] theorem State.goto_xRlen (p : Phase) : (s.goto p).xRlen = s.xRlen := rfl
@[simp] theorem State.goto_xHasData (p : Phase) : (s.goto p).xHasData = s.xHasData := rfl
@[simp] theorem State.goto_payload (p : Phase) : (s.goto p).payload = s.payload := rfl
@[simp] theorem State.goto_params (p : Phase) : (s.goto p).params = s.params := rfl
@[simp] theorem State.goto_hostPort (p : Phase) : (s.goto p).hostPort = s.hostPort := rfl
@[simp] theorem State.goto_rx (p : Phase) : (s.goto p).rx = s.rx := rfl
@[simp] theorem State.goto_resetPin (p : Phase) : (s.goto p).resetPin = s.resetPin := rfl
@[simp] theorem State.goto_stalled (p : Phase) : (s.goto p).stalled = s.stalled := rfl
@[simp] theorem State.goto_trace (p : Phase) : (s.goto p).trace = s.trace := rfl
@[simp] theorem State.goto_fresh (p : Phase) : (s.goto p).fresh = s.fresh := rfl

/-! `setDptr` -/

@[simp] theorem State.setDptr_phase (n : Nat) : (s.setDptr n).phase = s.phase := rfl
@[simp] theorem State.setDptr_cs (n : Nat) : (s.setDptr n).cs = s.cs := rfl
@[simp] theorem State.setDptr_initState (n : Nat) : (s.setDptr n).initState = s.initState := rfl
@[simp] theorem State.setDptr_failKind (n : Nat) : (s.setDptr n).failKind = s.failKind := rfl
@[simp] theorem State.setDptr_failInfo (n : Nat) : (s.setDptr n).failInfo = s.failInfo := rfl
@[simp] theorem State.setDptr_ocrPre (n : Nat) : (s.setDptr n).ocrPre = s.ocrPre := rfl
@[simp] theorem State.setDptr_ocrPost (n : Nat) : (s.setDptr n).ocrPost = s.ocrPost := rfl
@[simp] theorem State.setDptr_result (n : Nat) : (s.setDptr n).result = s.result := rfl
@[simp] theorem State.setDptr_resultDelivered (n : Nat) : (s.setDptr n).resultDelivered = s.resultDelivered := rfl
@[simp] theorem State.setDptr_reqOp (n : Nat) : (s.setDptr n).reqOp = s.reqOp := rfl
@[simp] theorem State.setDptr_reqId (n : Nat) : (s.setDptr n).reqId = s.reqId := rfl
@[simp] theorem State.setDptr_reqArg (n : Nat) : (s.setDptr n).reqArg = s.reqArg := rfl
@[simp] theorem State.setDptr_reqRlen (n : Nat) : (s.setDptr n).reqRlen = s.reqRlen := rfl
@[simp] theorem State.setDptr_reqHasData (n : Nat) : (s.setDptr n).reqHasData = s.reqHasData := rfl
@[simp] theorem State.setDptr_reqLockOp (n : Nat) : (s.setDptr n).reqLockOp = s.reqLockOp := rfl
@[simp] theorem State.setDptr_reqOld (n : Nat) : (s.setDptr n).reqOld = s.reqOld := rfl
@[simp] theorem State.setDptr_reqNew (n : Nat) : (s.setDptr n).reqNew = s.reqNew := rfl
@[simp] theorem State.setDptr_dbuf (n : Nat) : (s.setDptr n).dbuf = s.dbuf := rfl
@[simp] theorem State.setDptr_frameBuf (n : Nat) : (s.setDptr n).frameBuf = s.frameBuf := rfl
@[simp] theorem State.setDptr_crc7 (n : Nat) : (s.setDptr n).crc7 = s.crc7 := rfl
@[simp] theorem State.setDptr_crc16 (n : Nat) : (s.setDptr n).crc16 = s.crc16 := rfl
@[simp] theorem State.setDptr_idleCnt (n : Nat) : (s.setDptr n).idleCnt = s.idleCnt := rfl
@[simp] theorem State.setDptr_retryCnt (n : Nat) : (s.setDptr n).retryCnt = s.retryCnt := rfl
@[simp] theorem State.setDptr_busyCnt (n : Nat) : (s.setDptr n).busyCnt = s.busyCnt := rfl
@[simp] theorem State.setDptr_status (n : Nat) : (s.setDptr n).status = s.status := rfl
@[simp] theorem State.setDptr_error (n : Nat) : (s.setDptr n).error = s.error := rfl
@[simp] theorem State.setDptr_token (n : Nat) : (s.setDptr n).token = s.token := rfl
@[simp] theorem State.setDptr_rbuf (n : Nat) : (s.setDptr n).rbuf = s.rbuf := rfl
@[simp] theorem State.setDptr_rleft (n : Nat) : (s.setDptr n).rleft = s.rleft := rfl
@[simp] theorem State.setDptr_dptr (n : Nat) : (s.setDptr n).dptr = n := rfl
@[simp] theorem State.setDptr_seq (n : Nat) : (s.setDptr n).seq = s.seq := rfl
@[simp] theorem State.setDptr_xRlen (n : Nat) : (s.setDptr n).xRlen = s.xRlen := rfl
@[simp] theorem State.setDptr_xHasData (n : Nat) : (s.setDptr n).xHasData = s.xHasData := rfl
@[simp] theorem State.setDptr_payload (n : Nat) : (s.setDptr n).payload = s.payload := rfl
@[simp] theorem State.setDptr_params (n : Nat) : (s.setDptr n).params = s.params := rfl
@[simp] theorem State.setDptr_hostPort (n : Nat) : (s.setDptr n).hostPort = s.hostPort := rfl
@[simp] theorem State.setDptr_rx (n : Nat) : (s.setDptr n).rx = s.rx := rfl
@[simp] theorem State.setDptr_resetPin (n : Nat) : (s.setDptr n).resetPin = s.resetPin := rfl
@[simp] theorem State.setDptr_stalled (n : Nat) : (s.setDptr n).stalled = s.stalled := rfl
@[simp] theorem State.setDptr_trace (n : Nat) : (s.setDptr n).trace = s.trace := rfl
@[simp] theorem State.setDptr_fresh (n : Nat) : (s.setDptr n).fresh = s.fresh := rfl

/-! `setToken` -/

@[simp] theorem State.setToken_phase (t : Byte) : (s.setToken t).phase = s.phase := rfl
@[simp] theorem State.setToken_cs (t : Byte) : (s.setToken t).cs = s.cs := rfl
@[simp] theorem State.setToken_initState (t : Byte) : (s.setToken t).initState = s.initState := rfl
@[simp] theorem State.setToken_failKind (t : Byte) : (s.setToken t).failKind = s.failKind := rfl
@[simp] theorem State.setToken_failInfo (t : Byte) : (s.setToken t).failInfo = s.failInfo := rfl
@[simp] theorem State.setToken_ocrPre (t : Byte) : (s.setToken t).ocrPre = s.ocrPre := rfl
@[simp] theorem State.setToken_ocrPost (t : Byte) : (s.setToken t).ocrPost = s.ocrPost := rfl
@[simp] theorem State.setToken_result (t : Byte) : (s.setToken t).result = s.result := rfl
@[simp] theorem State.setToken_resultDelivered (t : Byte) : (s.setToken t).resultDelivered = s.resultDelivered := rfl
@[simp] theorem State.setToken_reqOp (t : Byte) : (s.setToken t).reqOp = s.reqOp := rfl
@[simp] theorem State.setToken_reqId (t : Byte) : (s.setToken t).reqId = s.reqId := rfl
@[simp] theorem State.setToken_reqArg (t : Byte) : (s.setToken t).reqArg = s.reqArg := rfl
@[simp] theorem State.setToken_reqRlen (t : Byte) : (s.setToken t).reqRlen = s.reqRlen := rfl
@[simp] theorem State.setToken_reqHasData (t : Byte) : (s.setToken t).reqHasData = s.reqHasData := rfl
@[simp] theorem State.setToken_reqLockOp (t : Byte) : (s.setToken t).reqLockOp = s.reqLockOp := rfl
@[simp] theorem State.setToken_reqOld (t : Byte) : (s.setToken t).reqOld = s.reqOld := rfl
@[simp] theorem State.setToken_reqNew (t : Byte) : (s.setToken t).reqNew = s.reqNew := rfl
@[simp] theorem State.setToken_dbuf (t : Byte) : (s.setToken t).dbuf = s.dbuf := rfl
@[simp] theorem State.setToken_frameBuf (t : Byte) : (s.setToken t).frameBuf = s.frameBuf := rfl
@[simp] theorem State.setToken_crc7 (t : Byte) : (s.setToken t).crc7 = s.crc7 := rfl
@[simp] theorem State.setToken_crc16 (t : Byte) : (s.setToken t).crc16 = s.crc16 := rfl
@[simp] theorem State.setToken_idleCnt (t : Byte) : (s.setToken t).idleCnt = s.idleCnt := rfl
@[simp] theorem State.setToken_retryCnt (t : Byte) : (s.setToken t).retryCnt = s.retryCnt := rfl
@[simp] theorem State.setToken_busyCnt (t : Byte) : (s.setToken t).busyCnt = s.busyCnt := rfl
@[simp] theorem State.setToken_status (t : Byte) : (s.setToken t).status = s.status := rfl
@[simp] theorem State.setToken_error (t : Byte) : (s.setToken t).error = s.error := rfl
@[simp] theorem State.setToken_token (t : Byte) : (s.setToken t).token = t := rfl
@[simp] theorem State.setToken_rbuf (t : Byte) : (s.setToken t).rbuf = s.rbuf := rfl
@[simp] theorem State.setToken_rleft (t : Byte) : (s.setToken t).rleft = s.rleft := rfl
@[simp] theorem State.setToken_dptr (t : Byte) : (s.setToken t).dptr = s.dptr := rfl
@[simp] theorem State.setToken_seq (t : Byte) : (s.setToken t).seq = s.seq := rfl
@[simp] theorem State.setToken_xRlen (t : Byte) : (s.setToken t).xRlen = s.xRlen := rfl
@[simp] theorem State.setToken_xHasData (t : Byte) : (s.setToken t).xHasData = s.xHasData := rfl
@[simp] theorem State.setToken_payload (t : Byte) : (s.setToken t).payload = s.payload := rfl
@[simp] theorem State.setToken_params (t : Byte) : (s.setToken t).params = s.params := rfl
@[simp] theorem State.setToken_hostPort (t : Byte) : (s.setToken t).hostPort = s.hostPort := rfl
@[simp] theorem State.setToken_rx (t : Byte) : (s.setToken t).rx = s.rx := rfl
@[simp] theorem State.setToken_resetPin (t : Byte) : (s.setToken t).resetPin = s.resetPin := rfl
@[simp] theorem State.setToken_stalled (t : Byte) : (s.setToken t).stalled = s.stalled := rfl
@[simp] theorem State.setToken_trace (t : Byte) : (s.setToken t).trace = s.trace := rfl
@[simp] theorem State.setToken_fresh (t : Byte) : (s.setToken t).fresh = s.fresh := rfl

/-! `setReply` -/

@[simp] theorem State.setReply_phase (l : List Byte) (n : Nat) : (s.setReply l n).phase = s.phase := rfl
@[simp] theorem State.setReply_cs (l : List Byte) (n : Nat) : (s.setReply l n).cs = s.cs := rfl
@[simp] theorem State.setReply_initState (l : List Byte) (n : Nat) : (s.setReply l n).initState = s.initState := rfl
@[simp] theorem State.setReply_failKind (l : List Byte) (n : Nat) : (s.setReply l n).failKind = s.failKind := rfl
@[simp] theorem State.setReply_failInfo (l : List Byte) (n : Nat) : (s.setReply l n).failInfo = s.failInfo := rfl
@[simp] theorem State.setReply_ocrPre (l : List Byte) (n : Nat) : (s.setReply l n).ocrPre = s.ocrPre := rfl
@[simp] theorem State.setReply_ocrPost (l : List Byte) (n : Nat) : (s.setReply l n).ocrPost = s.ocrPost := rfl
@[simp] theorem State.setReply_result (l : List Byte) (n : Nat) : (s.setReply l n).result = s.result := rfl
@[simp] theorem State.setReply_resultDelivered (l : List Byte) (n : Nat) : (s.setReply l n).resultDelivered = s.resultDelivered := rfl
@[simp] theorem State.setReply_reqOp (l : List Byte) (n : Nat) : (s.setReply l n).reqOp = s.reqOp := rfl
@[simp] theorem State.setReply_reqId (l : List Byte) (n : Nat) : (s.setReply l n).reqId = s.reqId := rfl
@[simp] theorem State.setReply_reqArg (l : List Byte) (n : Nat) : (s.setReply l n).reqArg = s.reqArg := rfl
@[simp] theorem State.setReply_reqRlen (l : List Byte) (n : Nat) : (s.setReply l n).reqRlen = s.reqRlen := rfl
@[simp] theorem State.setReply_reqHasData (l : List Byte) (n : Nat) : (s.setReply l n).reqHasData = s.reqHasData := rfl
@[simp] theorem State.setReply_reqLockOp (l : List Byte) (n : Nat) : (s.setReply l n).reqLockOp = s.reqLockOp := rfl
@[simp] theorem State.setReply_reqOld (l : List Byte) (n : Nat) : (s.setReply l n).reqOld = s.reqOld := rfl
@[simp] theorem State.setReply_reqNew (l : List Byte) (n : Nat) : (s.setReply l n).reqNew = s.reqNew := rfl
@[simp] theorem State.setReply_dbuf (l : List Byte) (n : Nat) : (s.setReply l n).dbuf = s.dbuf := rfl
@[simp] theorem State.setReply_frameBuf (l : List Byte) (n : Nat) : (s.setReply l n).frameBuf = s.frameBuf := rfl
@[simp] theorem State.setReply_crc7 (l : List Byte) (n : Nat) : (s.setReply l n).crc7 = s.crc7 := rfl
@[simp] theorem State.setReply_crc16 (l : List Byte) (n : Nat) : (s.setReply l n).crc16 = s.crc16 := rfl
@[simp] theorem State.setReply_idleCnt (l : List Byte) (n : Nat) : (s.setReply l n).idleCnt = s.idleCnt := rfl
@[simp] theorem State.setReply_retryCnt (l : List Byte) (n : Nat) : (s.setReply l n).retryCnt = s.retryCnt := rfl
@[simp] theorem State.setReply_busyCnt (l : List Byte) (n : Nat) : (s.setReply l n).busyCnt = s.busyCnt := rfl
@[simp] theorem State.setReply_status (l : List Byte) (n : Nat) : (s.setReply l n).status = s.status := rfl
@[simp] theorem State.setReply_error (l : List Byte) (n : Nat) : (s.setReply l n).error = s.error := rfl
@[simp] theorem State.setReply_token (l : List Byte) (n : Nat) : (s.setReply l n).token = s.token := rfl
@[simp] theorem State.setReply_rbuf (l : List Byte) (n : Nat) : (s.setReply l n).rbuf = l := rfl
@[simp] theorem State.setReply_rleft (l : List Byte) (n : Nat) : (s.setReply l n).rleft = n := rfl
@[simp] theorem State.setReply_dptr (l : List Byte) (n : Nat) : (s.setReply l n).dptr = s.dptr := rfl
@[simp] theorem State.setReply_seq (l : List Byte) (n : Nat) : (s.setReply l n).seq = s.seq := rfl
@[simp] theorem State.setReply_xRlen (l : List Byte) (n : Nat) : (s.setReply l n).xRlen = s.xRlen := rfl
@[simp] theorem State.setReply_xHasData (l : List Byte) (n : Nat) : (s.setReply l n).xHasData = s.xHasData := rfl
@[simp] theorem State.setReply_payload (l : List Byte) (n : Nat) : (s.setReply l n).payload = s.payload := rfl
@[simp] theorem State.setReply_params (l : List Byte) (n : Nat) : (s.setReply l n).params = s.params := rfl
@[simp] theorem State.setReply_hostPort (l : List Byte) (n : Nat) : (s.setReply l n).hostPort = s.hostPort := rfl
@[simp] theorem State.setReply_rx (l : List Byte) (n : Nat) : (s.setReply l n).rx = s.rx := rfl
@[simp] theorem State.setReply_resetPin (l : List Byte) (n : Nat) : (s.setReply l n).resetPin = s.resetPin := rfl
@[simp] theorem State.setReply_stalled (l : List Byte) (n : Nat) : (s.setReply l n).stalled = s.stalled := rfl
@[simp] theorem State.setReply_trace (l : List Byte) (n : Nat) : (s.setReply l n).trace = s.trace := rfl
@[simp] theorem State.setReply_fresh (l : List Byte) (n : Nat) : (s.setReply l n).fresh = s.fresh := rfl

/-! `setInit` -/

@[simp] theorem State.setInit_phase (v : InitState) : (s.setInit v).phase = s.phase := rfl
@[simp] theorem State.setInit_cs (v : InitState) : (s.setInit v).cs = s.cs := rfl
@[simp] theorem State.setInit_initState (v : InitState) : (s.setInit v).initState = v := rfl
@[simp] theorem State.setInit_failKind (v : InitState) : (s.setInit v).failKind = s.failKind := rfl
@[simp] theorem State.setInit_failInfo (v : InitState) : (s.setInit v).failInfo = s.failInfo := rfl
@[simp] theorem State.setInit_ocrPre (v : InitState) : (s.setInit v).ocrPre = s.ocrPre := rfl
@[simp] theorem State.setInit_ocrPost (v : InitState) : (s.setInit v).ocrPost = s.ocrPost := rfl
@[simp] theorem State.setInit_result (v : InitState) : (s.setInit v).result = s.result := rfl
@[simp] theorem State.setInit_resultDelivered (v : InitState) : (s.setInit v).resultDelivered = s.resultDelivered := rfl
@[simp] theorem State.setInit_reqOp (v : InitState) : (s.setInit v).reqOp = s.reqOp := rfl
@[simp] theorem State.setInit_reqId (v : InitState) : (s.setInit v).reqId = s.reqId := rfl
@[simp] theorem State.setInit_reqArg (v : InitState) : (s.setInit v).reqArg = s.reqArg := rfl
@[simp] theorem State.setInit_reqRlen (v : InitState) : (s.setInit v).reqRlen = s.reqRlen := rfl
@[simp] theorem State.setInit_reqHasData (v : InitState) : (s.setInit v).reqHasData = s.reqHasData := rfl
@[simp] theorem State.setInit_reqLockOp (v : InitState) : (s.setInit v).reqLockOp = s.reqLockOp := rfl
@[simp] theorem State.setInit_reqOld (v : InitState) : (s.setInit v).reqOld = s.reqOld := rfl
@[simp] theorem State.setInit_reqNew (v : InitState) : (s.setInit v).reqNew = s.reqNew := rfl
@[simp] theorem State.setInit_dbuf (v : InitState) : (s.setInit v).dbuf = s.dbuf := rfl
@[simp] theorem State.setInit_frameBuf (v : InitState) : (s.setInit v).frameBuf = s.frameBuf := rfl
@[simp] theorem State.setInit_crc7 (v : InitState) : (s.setInit v).crc7 = s.crc7 := rfl
@[simp] theorem State.setInit_crc16 (v : InitState) : (s.setInit v).crc16 = s.crc16 := rfl
@[simp] theorem State.setInit_idleCnt (v : InitState) : (s.setInit v).idleCnt = s.idleCnt := rfl
@[simp] theorem State.setInit_retryCnt (v : InitState) : (s.setInit v).retryCnt = s.retryCnt := rfl
@[simp] theorem State.setInit_busyCnt (v : InitState) : (s.setInit v).busyCnt = s.busyCnt := rfl
@[simp] theorem State.setInit_status (v : InitState) : (s.setInit v).status = s.status := rfl
@[simp] theorem State.setInit_error (v : InitState) : (s.setInit v).error = s.error := rfl
@[simp] theorem State.setInit_token (v : InitState) : (s.setInit v).token = s.token := rfl
@[simp] theorem State.setInit_rbuf (v : InitState) : (s.setInit v).rbuf = s.rbuf := rfl
@[simp] theorem State.setInit_rleft (v : InitState) : (s.setInit v).rleft = s.rleft := rfl
@[simp] theorem State.setInit_dptr (v : InitState) : (s.setInit v).dptr = s.dptr := rfl
@[simp] theorem State.setInit_seq (v : InitState) : (s.setInit v).seq = s.seq := rfl
@[simp] theorem State.setInit_xRlen (v : InitState) : (s.setInit v).xRlen = s.xRlen := rfl
@[simp] theorem State.setInit_xHasData (v : InitState) : (s.setInit v).xHasData = s.xHasData := rfl
@[simp] theorem State.setInit_payload (v : InitState) : (s.setInit v).payload = s.payload := rfl
@[simp] theorem State.setInit_params (v : InitState) : (s.setInit v).params = s.params := rfl
@[simp] theorem State.setInit_hostPort (v : InitState) : (s.setInit v).hostPort = s.hostPort := rfl
@[simp] theorem State.setInit_rx (v : InitState) : (s.setInit v).rx = s.rx := rfl
@[simp] theorem State.setInit_resetPin (v : InitState) : (s.setInit v).resetPin = s.resetPin := rfl
@[simp] theorem State.setInit_stalled (v : InitState) : (s.setInit v).stalled = s.stalled := rfl
@[simp] theorem State.setInit_trace (v : InitState) : (s.setInit v).trace = s.trace := rfl
@[simp] theorem State.setInit_fresh (v : InitState) : (s.setInit v).fresh = s.fresh := rfl

/-! `setRetry` -/

@[simp] theorem State.setRetry_phase (n : Nat) : (s.setRetry n).phase = s.phase := rfl
@[simp] theorem State.setRetry_cs (n : Nat) : (s.setRetry n).cs = s.cs := rfl
@[simp] theorem State.setRetry_initState (n : Nat) : (s.setRetry n).initState = s.initState := rfl
@[simp] theorem State.setRetry_failKind (n : Nat) : (s.setRetry n).failKind = s.failKind := rfl
@[simp] theorem State.setRetry_failInfo (n : Nat) : (s.setRetry n).failInfo = s.failInfo := rfl
@[simp] theorem State.setRetry_ocrPre (n : Nat) : (s.setRetry n).ocrPre = s.ocrPre := rfl
@[simp] theorem State.setRetry_ocrPost (n : Nat) : (s.setRetry n).ocrPost = s.ocrPost := rfl
@[simp] theorem State.setRetry_result (n : Nat) : (s.setRetry n).result = s.result := rfl
@[simp] theorem State.setRetry_resultDelivered (n : Nat) : (s.setRetry n).resultDelivered = s.resultDelivered := rfl
@[simp] theorem State.setRetry_reqOp (n : Nat) : (s.setRetry n).reqOp = s.reqOp := rfl
@[simp] theorem State.setRetry_reqId (n : Nat) : (s.setRetry n).reqId = s.reqId := rfl
@[simp] theorem State.setRetry_reqArg (n : Nat) : (s.setRetry n).reqArg = s.reqArg := rfl
@[simp] theorem State.setRetry_reqRlen (n : Nat) : (s.setRetry n).reqRlen = s.reqRlen := rfl
@[simp] theorem State.setRetry_reqHasData (n : Nat) : (s.setRetry n).reqHasData = s.reqHasData := rfl
@[simp] theorem State.setRetry_reqLockOp (n : Nat) : (s.setRetry n).reqLockOp = s.reqLockOp := rfl
@[simp] theorem State.setRetry_reqOld (n : Nat) : (s.setRetry n).reqOld = s.reqOld := rfl
@[simp] theorem State.setRetry_reqNew (n : Nat) : (s.setRetry n).reqNew = s.reqNew := rfl
@[simp] theorem State.setRetry_dbuf (n : Nat) : (s.setRetry n).dbuf = s.dbuf := rfl
@[simp] theorem State.setRetry_frameBuf (n : Nat) : (s.setRetry n).frameBuf = s.frameBuf := rfl
@[simp] theorem State.setRetry_crc7 (n : Nat) : (s.setRetry n).crc7 = s.crc7 := rfl
@[simp] theorem State.setRetry_crc16 (n : Nat) : (s.setRetry n).crc16 = s.crc16 := rfl
@[simp] theorem State.setRetry_idleCnt (n : Nat) : (s.setRetry n).idleCnt = s.idleCnt := rfl
@[simp] theorem State.setRetry_retryCnt (n : Nat) : (s.setRetry n).retryCnt = n := rfl
@[simp] theorem State.setRetry_busyCnt (n : Nat) : (s.setRetry n).busyCnt = s.busyCnt := rfl
@[simp] theorem State.setRetry_status (n : Nat) : (s.setRetry n).status = s.status := rfl
@[simp] theorem State.setRetry_error (n : Nat) : (s.setRetry n).error = s.error := rfl
@[simp] theorem State.setRetry_token (n : Nat) : (s.setRetry n).token = s.token := rfl
@[simp] theorem State.setRetry_rbuf (n : Nat) : (s.setRetry n).rbuf = s.rbuf := rfl
@[simp] theorem State.setRetry_rleft (n : Nat) : (s.setRetry n).rleft = s.rleft := rfl
@[simp] theorem State.setRetry_dptr (n : Nat) : (s.setRetry n).dptr = s.dptr := rfl
@[simp] theorem State.setRetry_seq (n : Nat) : (s.setRetry n).seq = s.seq := rfl
@[simp] theorem State.setRetry_xRlen (n : Nat) : (s.setRetry n).xRlen = s.xRlen := rfl
@[simp] theorem State.setRetry_xHasData (n : Nat) : (s.setRetry n).xHasData = s.xHasData := rfl
@[simp] theorem State.setRetry_payload (n : Nat) : (s.setRetry n).payload = s.payload := rfl
@[simp] theorem State.setRetry_params (n : Nat) : (s.setRetry n).params = s.params := rfl
@[simp] theorem State.setRetry_hostPort (n : Nat) : (s.setRetry n).hostPort = s.hostPort := rfl
@[simp] theorem State.setRetry_rx (n : Nat) : (s.setRetry n).rx = s.rx := rfl
@[simp] theorem State.setRetry_resetPin (n : Nat) : (s.setRetry n).resetPin = s.resetPin := rfl
@[simp] theorem State.setRetry_stalled (n : Nat) : (s.setRetry n).stalled = s.stalled := rfl
@[simp] theorem State.setRetry_trace (n : Nat) : (s.setRetry n).trace = s.trace := rfl
@[simp] theorem State.setRetry_fresh (n : Nat) : (s.setRetry n).fresh = s.fresh := rfl

/-! `bumpIdle` -/

@[simp] theorem State.bumpIdle_phase : s.bumpIdle.phase = s.phase := rfl
@[simp] theorem State.bumpIdle_cs : s.bumpIdle.cs = s.cs := rfl
@[simp] theorem State.bumpIdle_initState : s.bumpIdle.initState = s.initState := rfl
@[simp] theorem State.bumpIdle_failKind : s.bumpIdle.failKind = s.failKind := rfl
@[simp] theorem State.bumpIdle_failInfo : s.bumpIdle.failInfo = s.failInfo := rfl
@[simp] theorem State.bumpIdle_ocrPre : s.bumpIdle.ocrPre = s.ocrPre := rfl
@[simp] theorem State.bumpIdle_ocrPost : s.bumpIdle.ocrPost = s.ocrPost := rfl
@[simp] theorem State.bumpIdle_result : s.bumpIdle.result = s.result := rfl
@[simp] theorem State.bumpIdle_resultDelivered : s.bumpIdle.resultDelivered = s.resultDelivered := rfl
@[simp] theorem State.bumpIdle_reqOp : s.bumpIdle.reqOp = s.reqOp := rfl
@[simp] theorem State.bumpIdle_reqId : s.bumpIdle.reqId = s.reqId := rfl
@[simp] theorem State.bumpIdle_reqArg : s.bumpIdle.reqArg = s.reqArg := rfl
@[simp] theorem State.bumpIdle_reqRlen : s.bumpIdle.reqRlen = s.reqRlen := rfl
@[simp] theorem State.bumpIdle_reqHasData : s.bumpIdle.reqHasData = s.reqHasData := rfl
@[simp] theorem State.bumpIdle_reqLockOp : s.bumpIdle.reqLockOp = s.reqLockOp := rfl
@[simp] theorem State.bumpIdle_reqOld : s.bumpIdle.reqOld = s.reqOld := rfl
@[simp] theorem State.bumpIdle_reqNew : s.bumpIdle.reqNew = s.reqNew := rfl
@[simp] theorem State.bumpIdle_dbuf : s.bumpIdle.dbuf = s.dbuf := rfl
@[simp] theorem State.bumpIdle_frameBuf : s.bumpIdle.frameBuf = s.frameBuf := rfl
@[simp] theorem State.bumpIdle_crc7 : s.bumpIdle.crc7 = s.crc7 := rfl
@[simp] theorem State.bumpIdle_crc16 : s.bumpIdle.crc16 = s.crc16 := rfl
@[simp] theorem State.bumpIdle_idleCnt : s.bumpIdle.idleCnt = s.idleCnt + 1 := rfl
@[simp] theorem State.bumpIdle_retryCnt : s.bumpIdle.retryCnt = s.retryCnt := rfl
@[simp] theorem State.bumpIdle_busyCnt : s.bumpIdle.busyCnt = s.busyCnt := rfl
@[simp] theorem State.bumpIdle_status : s.bumpIdle.status = s.status := rfl
@[simp] theorem State.bumpIdle_error : s.bumpIdle.error = s.error := rfl
@[simp] theorem State.bumpIdle_token : s.bumpIdle.token = s.token := rfl
@[simp] theorem State.bumpIdle_rbuf : s.bumpIdle.rbuf = s.rbuf := rfl
@[simp] theorem State.bumpIdle_rleft : s.bumpIdle.rleft = s.rleft := rfl
@[simp] theorem State.bumpIdle_dptr : s.bumpIdle.dptr = s.dptr := rfl
@[simp] theorem State.bumpIdle_seq : s.bumpIdle.seq = s.seq := rfl
@[simp] theorem State.bumpIdle_xRlen : s.bumpIdle.xRlen = s.xRlen := rfl
@[simp] theorem State.bumpIdle_xHasData : s.bumpIdle.xHasData = s.xHasData := rfl
@[simp] theorem State.bumpIdle_payload : s.bumpIdle.payload = s.payload := rfl
@[simp] theorem State.bumpIdle_params : s.bumpIdle.params = s.params := rfl
@[simp] theorem State.bumpIdle_hostPort : s.bumpIdle.hostPort = s.hostPort := rfl
@[simp] theorem State.bumpIdle_rx : s.bumpIdle.rx = s.rx := rfl
@[simp] theorem State.bumpIdle_resetPin : s.bumpIdle.resetPin = s.resetPin := rfl
@[simp] theorem State.bumpIdle_stalled : s.bumpIdle.stalled = s.stalled := rfl
@[simp] theorem State.bumpIdle_trace : s.bumpIdle.trace = s.trace := rfl
@[simp] theorem State.bumpIdle_fresh : s.bumpIdle.fresh = s.fresh := rfl

/-! `bumpBusy` -/

@[simp] theorem State.bumpBusy_phase : s.bumpBusy.phase = s.phase := rfl
@[simp] theorem State.bumpBusy_cs : s.bumpBusy.cs = s.cs := rfl
@[simp] theorem State.bumpBusy_initState : s.bumpBusy.initState = s.initState := rfl
@[simp] theorem State.bumpBusy_failKind : s.bumpBusy.failKind = s.failKind := rfl
@[simp] theorem State.bumpBusy_failInfo : s.bumpBusy.failInfo = s.failInfo := rfl
@[simp] theorem State.bumpBusy_ocrPre : s.bumpBusy.ocrPre = s.ocrPre := rfl
@[simp] theorem State.bumpBusy_ocrPost : s.bumpBusy.ocrPost = s.ocrPost := rfl
@[simp] theorem State.bumpBusy_result : s.bumpBusy.result = s.result := rfl
@[simp] theorem State.bumpBusy_resultDelivered : s.bumpBusy.resultDelivered = s.resultDelivered := rfl
@[simp] theorem State.bumpBusy_reqOp : s.bumpBusy.reqOp = s.reqOp := rfl
@[simp] theorem State.bumpBusy_reqId : s.bumpBusy.reqId = s.reqId := rfl
@[simp] theorem State.bumpBusy_reqArg : s.bumpBusy.reqArg = s.reqArg := rfl
@[simp] theorem State.bumpBusy_reqRlen : s.bumpBusy.reqRlen = s.reqRlen := rfl
@[simp] theorem State.bumpBusy_reqHasData : s.bumpBusy.reqHasData = s.reqHasData := rfl
@[simp] theorem State.bumpBusy_reqLockOp : s.bumpBusy.reqLockOp = s.reqLockOp := rfl
@[simp] theorem State.bumpBusy_reqOld : s.bumpBusy.reqOld = s.reqOld := rfl
@[simp] theorem State.bumpBusy_reqNew : s.bumpBusy.reqNew = s.reqNew := rfl
@[simp] theorem State.bumpBusy_dbuf : s.bumpBusy.dbuf = s.dbuf := rfl
@[simp] theorem State.bumpBusy_frameBuf : s.bumpBusy.frameBuf = s.frameBuf := rfl
@[simp] theorem State.bumpBusy_crc7 : s.bumpBusy.crc7 = s.crc7 := rfl
@[simp] theorem State.bumpBusy_crc16 : s.bumpBusy.crc16 = s.crc16 := rfl
@[simp] theorem State.bumpBusy_idleCnt : s.bumpBusy.idleCnt = s.idleCnt := rfl
@[simp] theorem State.bumpBusy_retryCnt : s.bumpBusy.retryCnt = s.retryCnt := rfl
@[simp] theorem State.bumpBusy_busyCnt : s.bumpBusy.busyCnt = s.busyCnt + 1 := rfl
@[simp] theorem State.bumpBusy_status : s.bumpBusy.status = s.status := rfl
@[simp] theorem State.bumpBusy_error : s.bumpBusy.error = s.error := rfl
@[simp] theorem State.bumpBusy_token : s.bumpBusy.token = s.token := rfl
@[simp] theorem State.bumpBusy_rbuf : s.bumpBusy.rbuf = s.rbuf := rfl
@[simp] theorem State.bumpBusy_rleft : s.bumpBusy.rleft = s.rleft := rfl
@[simp] theorem State.bumpBusy_dptr : s.bumpBusy.dptr = s.dptr := rfl
@[simp] theorem State.bumpBusy_seq : s.bumpBusy.seq = s.seq := rfl
@[simp] theorem State.bumpBusy_xRlen : s.bumpBusy.xRlen = s.xRlen := rfl
@[simp] theorem State.bumpBusy_xHasData : s.bumpBusy.xHasData = s.xHasData := rfl
@[simp] theorem State.bumpBusy_payload : s.bumpBusy.payload = s.payload := rfl
@[simp] theorem State.bumpBusy_params : s.bumpBusy.params = s.params := rfl
@[simp] theorem State.bumpBusy_hostPort : s.bumpBusy.hostPort = s.hostPort := rfl
@[simp] theorem State.bumpBusy_rx : s.bumpBusy.rx = s.rx := rfl
@[simp] theorem State.bumpBusy_resetPin : s.bumpBusy.resetPin = s.resetPin := rfl
@[simp] theorem State.bumpBusy_stalled : s.bumpBusy.stalled = s.stalled := rfl
@[simp] theorem State.bumpBusy_trace : s.bumpBusy.trace = s.trace := rfl
@[simp] theorem State.bumpBusy_fresh : s.bumpBusy.fresh = s.fresh := rfl

/-! `captureOcrPre` -/

@[simp] theorem State.captureOcrPre_phase (v : List Byte) : (s.captureOcrPre v).phase = s.phase := rfl
@[simp] theorem State.captureOcrPre_cs (v : List Byte) : (s.captureOcrPre v).cs = s.cs := rfl
@[simp] theorem State.captureOcrPre_initState (v : List Byte) : (s.captureOcrPre v).initState = s.initState := rfl
@[simp] theorem State.captureOcrPre_failKind (v : List Byte) : (s.captureOcrPre v).failKind = s.failKind := rfl
@[simp] theorem State.captureOcrPre_failInfo (v : List Byte) : (s.captureOcrPre v).failInfo = s.failInfo := rfl
@[simp] theorem State.captureOcrPre_ocrPre (v : List Byte) : (s.captureOcrPre v).ocrPre = some v := rfl
@[simp] theorem State.captureOcrPre_ocrPost (v : List Byte) : (s.captureOcrPre v).ocrPost = s.ocrPost := rfl
@[simp] theorem State.captureOcrPre_result (v : List Byte) : (s.captureOcrPre v).result = s.result := rfl
@[simp] theorem State.captureOcrPre_resultDelivered (v : List Byte) : (s.captureOcrPre v).resultDelivered = s.resultDelivered := rfl
@[simp] theorem State.captureOcrPre_reqOp (v : List Byte) : (s.captureOcrPre v).reqOp = s.reqOp := rfl
@[simp] theorem State.captureOcrPre_reqId (v : List Byte) : (s.captureOcrPre v).reqId = s.reqId := rfl
@[simp] theorem State.captureOcrPre_reqArg (v : List Byte) : (s.captureOcrPre v).reqArg = s.reqArg := rfl
@[simp] theorem State.captureOcrPre_reqRlen (v : List Byte) : (s.captureOcrPre v).reqRlen = s.reqRlen := rfl
@[simp] theorem State.captureOcrPre_reqHasData (v : List Byte) : (s.captureOcrPre v).reqHasData = s.reqHasData := rfl
@[simp] theorem State.captureOcrPre_reqLockOp (v : List Byte) : (s.captureOcrPre v).reqLockOp = s.reqLockOp := rfl
@[simp] theorem State.captureOcrPre_reqOld (v : List Byte) : (s.captureOcrPre v).reqOld = s.reqOld := rfl
@[simp] theorem State.captureOcrPre_reqNew (v : List Byte) : (s.captureOcrPre v).reqNew = s.reqNew := rfl
@[simp] theorem State.captureOcrPre_dbuf (v : List Byte) : (s.captureOcrPre v).dbuf = s.dbuf := rfl
@[simp] theorem State.captureOcrPre_frameBuf (v : List Byte) : (s.captureOcrPre v).frameBuf = s.frameBuf := rfl
@[simp] theorem State.captureOcrPre_crc7 (v : List Byte) : (s.captureOcrPre v).crc7 = s.crc7 := rfl
@[simp] theorem State.captureOcrPre_crc16 (v : List Byte) : (s.captureOcrPre v).crc16 = s.crc16 := rfl
@[simp] theorem State.captureOcrPre_idleCnt (v : List Byte) : (s.captureOcrPre v).idleCnt = s.idleCnt := rfl
@[simp] theorem State.captureOcrPre_retryCnt (v : List Byte) : (s.captureOcrPre v).retryCnt = s.retryCnt := rfl
@[simp] theorem State.captureOcrPre_busyCnt (v : List Byte) : (s.captureOcrPre v).busyCnt = s.busyCnt := rfl
@[simp] theorem State.captureOcrPre_status (v : List Byte) : (s.captureOcrPre v).status = s.status := rfl
@[simp] theorem State.captureOcrPre_error (v : List Byte) : (s.captureOcrPre v).error = s.error := rfl
@[simp] theorem State.captureOcrPre_token (v : List Byte) : (s.captureOcrPre v).token = s.token := rfl
@[simp] theorem State.captureOcrPre_rbuf (v : List Byte) : (s.captureOcrPre v).rbuf = s.rbuf := rfl
@[simp] theorem State.captureOcrPre_rleft (v : List Byte) : (s.captureOcrPre v).rleft = s.rleft := rfl
@[simp] theorem State.captureOcrPre_dptr (v : List Byte) : (s.captureOcrPre v).dptr = s.dptr := rfl
@[simp] theorem State.captureOcrPre_seq (v : List Byte) : (s.captureOcrPre v).seq = s.seq := rfl
@[simp] theorem State.captureOcrPre_xRlen (v : List Byte) : (s.captureOcrPre v).xRlen = s.xRlen := rfl
@[simp] theorem State.captureOcrPre_xHasData (v : List Byte) : (s.captureOcrPre v).xHasData = s.xHasData := rfl
@[simp] theorem State.captureOcrPre_payload (v : List Byte) : (s.captureOcrPre v).payload = s.payload := rfl
@[simp] theorem State.captureOcrPre_params (v : List Byte) : (s.captureOcrPre v).params = s.params := rfl
@[simp] theorem State.captureOcrPre_hostPort (v : List Byte) : (s.captureOcrPre v).hostPort = s.hostPort := rfl
@[simp] theorem State.captureOcrPre_rx (v : List Byte) : (s.captureOcrPre v).rx = s.rx := rfl
@[simp] theorem State.captureOcrPre_resetPin (v : List Byte) : (s.captureOcrPre v).resetPin = s.resetPin := rfl
@[simp] theorem State.captureOcrPre_stalled (v : List Byte) : (s.captureOcrPre v).stalled = s.stalled := rfl
@[simp] theorem State.captureOcrPre_trace (v : List Byte) : (s.captureOcrPre v).trace = s.trace := rfl
@[simp] theorem State.captureOcrPre_fresh (v : List Byte) : (s.captureOcrPre v).fresh = s.fresh := rfl

/-! `captureOcrPost` -/

@[simp] theorem State.captureOcrPost_phase (v : List Byte) : (s.captureOcrPost v).phase = s.phase := rfl
@[simp] theorem State.captureOcrPost_cs (v : List Byte) : (s.captureOcrPost v).cs = s.cs := rfl
@[simp] theorem State.captureOcrPost_initState (v : List Byte) : (s.captureOcrPost v).initState = s.initState := rfl
@[simp] theorem State.captureOcrPost_failKind (v : List Byte) : (s.captureOcrPost v).failKind = s.failKind := rfl
@[simp] theorem State.captureOcrPost_failInfo (v : List Byte) : (s.captureOcrPost v).failInfo = s.failInfo := rfl
@[simp] theorem State.captureOcrPost_ocrPre (v : List Byte) : (s.captureOcrPost v).ocrPre = s.ocrPre := rfl
@[simp] theorem State.captureOcrPost_ocrPost (v : List Byte) : (s.captureOcrPost v).ocrPost = some v := rfl
@[simp] theorem State.captureOcrPost_result (v : List Byte) : (s.captureOcrPost v).result = s.result := rfl
@[simp] theorem State.captureOcrPost_resultDelivered (v : List Byte) : (s.captureOcrPost v).resultDelivered = s.resultDelivered := rfl
@[simp] theorem State.captureOcrPost_reqOp (v : List Byte) : (s.captureOcrPost v).reqOp = s.reqOp := rfl
@[simp] theorem State.captureOcrPost_reqId (v : List Byte) : (s.captureOcrPost v).reqId = s.reqId := rfl
@[simp] theorem State.captureOcrPost_reqArg (v : List Byte) : (s.captureOcrPost v).reqArg = s.reqArg := rfl
@[simp] theorem State.captureOcrPost_reqRlen (v : List Byte) : (s.captureOcrPost v).reqRlen = s.reqRlen := rfl
@[simp] theorem State.captureOcrPost_reqHasData (v : List Byte) : (s.captureOcrPost v).reqHasData = s.reqHasData := rfl
@[simp] theorem State.captureOcrPost_reqLockOp (v : List Byte) : (s.captureOcrPost v).reqLockOp = s.reqLockOp := rfl
@[simp] theorem State.captureOcrPost_reqOld (v : List Byte) : (s.captureOcrPost v).reqOld = s.reqOld := rfl
@[simp] theorem State.captureOcrPost_reqNew (v : List Byte) : (s.captureOcrPost v).reqNew = s.reqNew := rfl
@[simp] theorem State.captureOcrPost_dbuf (v : List Byte) : (s.captureOcrPost v).dbuf = s.dbuf := rfl
@[simp] theorem State.captureOcrPost_frameBuf (v : List Byte) : (s.captureOcrPost v).frameBuf = s.frameBuf := rfl
@[simp] theorem State.captureOcrPost_crc7 (v : List Byte) : (s.captureOcrPost v).crc7 = s.crc7 := rfl
@[simp] theorem State.captureOcrPost_crc16 (v : List Byte) : (s.captureOcrPost v).crc16 = s.crc16 := rfl
@[simp] theorem State.captureOcrPost_idleCnt (v : List Byte) : (s.captureOcrPost v).idleCnt = s.idleCnt := rfl
@[simp] theorem State.captureOcrPost_retryCnt (v : List Byte) : (s.captureOcrPost v).retryCnt = s.retryCnt := rfl
@[simp] theorem State.captureOcrPost_busyCnt (v : List Byte) : (s.captureOcrPost v).busyCnt = s.busyCnt := rfl
@[simp] theorem State.captureOcrPost_status (v : List Byte) : (s.captureOcrPost v).status = s.status := rfl
@[simp] theorem State.captureOcrPost_error (v : List Byte) : (s.captureOcrPost v).error = s.error := rfl
@[simp] theorem State.captureOcrPost_token (v : List Byte) : (s.captureOcrPost v).token = s.token := rfl
@[simp] theorem State.captureOcrPost_rbuf (v : List Byte) : (s.captureOcrPost v).rbuf = s.rbuf := rfl
@[simp] theorem State.captureOcrPost_rleft (v : List Byte) : (s.captureOcrPost v).rleft = s.rleft := rfl
@[simp] theorem State.captureOcrPost_dptr (v : List Byte) : (s.captureOcrPost v).dptr = s.dptr := rfl
@[simp] theorem State.captureOcrPost_seq (v : List Byte) : (s.captureOcrPost v).seq = s.seq := rfl
@[simp] theorem State.captureOcrPost_xRlen (v : List Byte) : (s.captureOcrPost v).xRlen = s.xRlen := rfl
@[simp] theorem State.captureOcrPost_xHasData (v : List Byte) : (s.captureOcrPost v).xHasData = s.xHasData := rfl
@[simp] theorem State.captureOcrPost_payload (v : List Byte) : (s.captureOcrPost v).payload = s.payload := rfl
@[simp] theorem State.captureOcrPost_params (v : List Byte) : (s.captureOcrPost v).params = s.params := rfl
@[simp] theorem State.captureOcrPost_hostPort (v : List Byte) : (s.captureOcrPost v).hostPort = s.hostPort := rfl
@[simp] theorem State.captureOcrPost_rx (v : List Byte) : (s.captureOcrPost v).rx = s.rx := rfl
@[simp] theorem State.captureOcrPost_resetPin (v : List Byte) : (s.captureOcrPost v).resetPin = s.resetPin := rfl
@[simp] theorem State.captureOcrPost_stalled (v : List Byte) : (s.captureOcrPost v).stalled = s.stalled := rfl
@[simp] theorem State.captureOcrPost_trace (v : List Byte) : (s.captureOcrPost v).trace = s.trace := rfl
@[simp] theorem State.captureOcrPost_fresh (v : List Byte) : (s.captureOcrPost v).fresh = s.fresh := rfl

/-! `setBlockByte` -/

@[simp] theorem State.setBlockByte_phase (b : Byte) : (s.setBlockByte b).phase = s.phase := rfl
@[simp] theorem State.setBlockByte_cs (b : Byte) : (s.setBlockByte b).cs = s.cs := rfl
@[simp] theorem State.setBlockByte_initState (b : Byte) : (s.setBlockByte b).initState = s.initState := rfl
@[simp] theorem State.setBlockByte_failKind (b : Byte) : (s.setBlockByte b).failKind = s.failKind := rfl
@[simp] theorem State.setBlockByte_failInfo (b : Byte) : (s.setBlockByte b).failInfo = s.failInfo := rfl
@[simp] theorem State.setBlockByte_ocrPre (b : Byte) : (s.setBlockByte b).ocrPre = s.ocrPre := rfl
@[simp] theorem State.setBlockByte_ocrPost (b : Byte) : (s.setBlockByte b).ocrPost = s.ocrPost := rfl
@[simp] theorem State.setBlockByte_result (b : Byte) : (s.setBlockByte b).result = s.result := rfl
@[simp] theorem State.setBlockByte_resultDelivered (b : Byte) : (s.setBlockByte b).resultDelivered = s.resultDelivered := rfl
@[simp] theorem State.setBlockByte_reqOp (b : Byte) : (s.setBlockByte b).reqOp = s.reqOp := rfl
@[simp] theorem State.setBlockByte_reqId (b : Byte) : (s.setBlockByte b).reqId = s.reqId := rfl
@[simp] theorem State.setBlockByte_reqArg (b : Byte) : (s.setBlockByte b).reqArg = s.reqArg := rfl
@[simp] theorem State.setBlockByte_reqRlen (b : Byte) : (s.setBlockByte b).reqRlen = s.reqRlen := rfl
@[simp] theorem State.setBlockByte_reqHasData (b : Byte) : (s.setBlockByte b).reqHasData = s.reqHasData := rfl
@[simp] theorem State.setBlockByte_reqLockOp (b : Byte) : (s.setBlockByte b).reqLockOp = s.reqLockOp := rfl
@[simp] theorem State.setBlockByte_reqOld (b : Byte) : (s.setBlockByte b).reqOld = s.reqOld := rfl
@[simp] theorem State.setBlockByte_reqNew (b : Byte) : (s.setBlockByte b).reqNew = s.reqNew := rfl
@[simp] theorem State.setBlockByte_dbuf (b : Byte) : (s.setBlockByte b).dbuf = b :: s.dbuf.tail := rfl
@[simp] theorem State.setBlockByte_frameBuf (b : Byte) : (s.setBlockByte b).frameBuf = s.frameBuf := rfl
@[simp] theorem State.setBlockByte_crc7 (b : Byte) : (s.setBlockByte b).crc7 = s.crc7 := rfl
@[simp] theorem State.setBlockByte_crc16 (b : Byte) : (s.setBlockByte b).crc16 = s.crc16 := rfl
@[simp] theorem State.setBlockByte_idleCnt (b : Byte) : (s.setBlockByte b).idleCnt = s.idleCnt := rfl
@[simp] theorem State.setBlockByte_retryCnt (b : Byte) : (s.setBlockByte b).retryCnt = s.retryCnt := rfl
@[simp] theorem State.setBlockByte_busyCnt (b : Byte) : (s.setBlockByte b).busyCnt = s.busyCnt := rfl
@[simp] theorem State.setBlockByte_status (b : Byte) : (s.setBlockByte b).status = s.status := rfl
@[simp] theorem State.setBlockByte_error (b : Byte) : (s.setBlockByte b).error = s.error := rfl
@[simp] theorem State.setBlockByte_token (b : Byte) : (s.setBlockByte b).token = s.token := rfl
@[simp] theorem State.setBlockByte_rbuf (b : Byte) : (s.setBlockByte b).rbuf = s.rbuf := rfl
@[simp] theorem State.setBlockByte_rleft (b : Byte) : (s.setBlockByte b).rleft = s.rleft := rfl
@[simp] theorem State.setBlockByte_dptr (b : Byte) : (s.setBlockByte b).dptr = s.dptr := rfl
@[simp] theorem State.setBlockByte_seq (b : Byte) : (s.setBlockByte b).seq = s.seq := rfl
@[simp] theorem State.setBlockByte_xRlen (b : Byte) : (s.setBlockByte b).xRlen = s.xRlen := rfl
@[simp] theorem State.setBlockByte_xHasData (b : Byte) : (s.setBlockByte b).xHasData = s.xHasData := rfl
@[simp] theorem State.setBlockByte_payload (b : Byte) : (s.setBlockByte b).payload = s.payload := rfl
@[simp] theorem State.setBlockByte_params (b : Byte) : (s.setBlockByte b).params = s.params := rfl
@[simp] theorem State.setBlockByte_hostPort (b : Byte) : (s.setBlockByte b).hostPort = s.hostPort := rfl
@[simp] theorem State.setBlockByte_rx (b : Byte) : (s.setBlockByte b).rx = s.rx := rfl
@[simp] theorem State.setBlockByte_resetPin (b : Byte) : (s.setBlockByte b).resetPin = s.resetPin := rfl
@[simp] theorem State.setBlockByte_stalled (b : Byte) : (s.setBlockByte b).stalled = s.stalled := rfl
@[simp] theorem State.setBlockByte_trace (b : Byte) : (s.setBlockByte b).trace = s.trace := rfl
@[simp] theorem State.setBlockByte_fresh (b : Byte) : (s.setBlockByte b).fresh = s.fresh := rfl

/-! `prepare` -/

@[simp] theorem State.prepare_phase (q : Seq) : (s.prepare q).phase = .xAssert := rfl
@[simp] theorem State.prepare_cs (q : Seq) : (s.prepare q).cs = s.cs := rfl
@[simp] theorem State.prepare_initState (q : Seq) : (s.prepare q).initState = s.initState := rfl
@[simp] theorem State.prepare_failKind (q : Seq) : (s.prepare q).failKind = s.failKind := rfl
@[simp] theorem State.prepare_failInfo (q : Seq) : (s.prepare q).failInfo = s.failInfo := rfl
@[simp] theorem State.prepare_ocrPre (q : Seq) : (s.prepare q).ocrPre = s.ocrPre := rfl
@[simp] theorem State.prepare_ocrPost (q : Seq) : (s.prepare q).ocrPost = s.ocrPost := rfl
@[simp] theorem State.prepare_result (q : Seq) : (s.prepare q).result = s.result := rfl
@[simp] theorem State.prepare_resultDelivered (q : Seq) : (s.prepare q).resultDelivered = s.resultDelivered := rfl
@[simp] theorem State.prepare_reqOp (q : Seq) : (s.prepare q).reqOp = s.reqOp := rfl
@[simp] theorem State.prepare_reqId (q : Seq) : (s.prepare q).reqId = s.reqId := rfl
@[simp] theorem State.prepare_reqArg (q : Seq) : (s.prepare q).reqArg = s.reqArg := rfl
@[simp] theorem State.prepare_reqRlen (q : Seq) : (s.prepare q).reqRlen = s.reqRlen := rfl
@[simp] theorem State.prepare_reqHasData (q : Seq) : (s.prepare q).reqHasData = s.reqHasData := rfl
@[simp] theorem State.prepare_reqLockOp (q : Seq) : (s.prepare q).reqLockOp = s.reqLockOp := rfl
@[simp] theorem State.prepare_reqOld (q : Seq) : (s.prepare q).reqOld = s.reqOld := rfl
@[simp] theorem State.prepare_reqNew (q : Seq) : (s.prepare q).reqNew = s.reqNew := rfl
@[simp] theorem State.prepare_dbuf (q : Seq) : (s.prepare q).dbuf = s.dbuf := rfl
@[simp] theorem State.prepare_frameBuf (q : Seq) : (s.prepare q).frameBuf = buildFrame (exchangeId q s.reqId) (exchangeArg q s.reqArg s.params s.dbuf) := rfl
@[simp] theorem State.prepare_crc7 (q : Seq) : (s.prepare q).crc7 = frameCrc (exchangeId q s.reqId) (exchangeArg q s.reqArg s.params s.dbuf) := rfl
@[simp] theorem State.prepare_crc16 (q : Seq) : (s.prepare q).crc16 = s.crc16 := rfl
@[simp] theorem State.prepare_idleCnt (q : Seq) : (s.prepare q).idleCnt = s.idleCnt := rfl
@[simp] theorem State.prepare_retryCnt (q : Seq) : (s.prepare q).retryCnt = s.retryCnt := rfl
@[simp] theorem State.prepare_busyCnt (q : Seq) : (s.prepare q).busyCnt = s.busyCnt := rfl
@[simp] theorem State.prepare_status (q : Seq) : (s.prepare q).status = s.status := rfl
@[simp] theorem State.prepare_error (q : Seq) : (s.prepare q).error = s.error := rfl
@[simp] theorem State.prepare_token (q : Seq) : (s.prepare q).token = s.token := rfl
@[simp] theorem State.prepare_rbuf (q : Seq) : (s.prepare q).rbuf = s.rbuf := rfl
@[simp] theorem State.prepare_rleft (q : Seq) : (s.prepare q).rleft = s.rleft := rfl
@[simp] theorem State.prepare_dptr (q : Seq) : (s.prepare q).dptr = s.dptr := rfl
@[simp] theorem State.prepare_seq (q : Seq) : (s.prepare q).seq = q := rfl
@[simp] theorem State.prepare_xRlen (q : Seq) : (s.prepare q).xRlen = s.xRlen := rfl
@[simp] theorem State.prepare_xHasData (q : Seq) : (s.prepare q).xHasData = s.xHasData := rfl
@[simp] theorem State.prepare_payload (q : Seq) : (s.prepare q).payload = s.payload := rfl
@[simp] theorem State.prepare_params (q : Seq) : (s.prepare q).params = s.params := rfl
@[simp] theorem State.prepare_hostPort (q : Seq) : (s.prepare q).hostPort = s.hostPort := rfl
@[simp] theorem State.prepare_rx (q : Seq) : (s.prepare q).rx = s.rx := rfl
@[simp] theorem State.prepare_resetPin (q : Seq) : (s.prepare q).resetPin = s.resetPin := rfl
@[simp] theorem State.prepare_stalled (q : Seq) : (s.prepare q).stalled = s.stalled := rfl
@[simp] theorem State.prepare_trace (q : Seq) : (s.prepare q).trace = s.trace := rfl
@[simp] theorem State.prepare_fresh (q : Seq) : (s.prepare q).fresh = s.fresh := rfl

/-! `beginExchange` -/

@[simp] theorem State.beginExchange_phase (f : Frame) (n : Word) (d : Bool) : (s.beginExchange f n d).phase = .xTx 0 := rfl
@[simp] theorem State.beginExchange_cs (f : Frame) (n : Word) (d : Bool) : (s.beginExchange f n d).cs = true := rfl
@[simp] theorem State.beginExchange_initState (f : Frame) (n : Word) (d : Bool) : (s.beginExchange f n d).initState = s.initState := rfl
@[simp] theorem State.beginExchange_failKind (f : Frame) (n : Word) (d : Bool) : (s.beginExchange f n d).failKind = s.failKind := rfl
@[simp] theorem State.beginExchange_failInfo (f : Frame) (n : Word) (d : Bool) : (s.beginExchange f n d).failInfo = s.failInfo := rfl
@[simp] theorem State.beginExchange_ocrPre (f : Frame) (n : Word) (d : Bool) : (s.beginExchange f n d).ocrPre = s.ocrPre := rfl
@[simp] theorem State.beginExchange_ocrPost (f : Frame) (n : Word) (d : Bool) : (s.beginExchange f n d).ocrPost = s.ocrPost := rfl
@[simp] theorem State.beginExchange_result (f : Frame) (n : Word) (d : Bool) : (s.beginExchange f n d).result = s.result := rfl
@[simp] theorem State.beginExchange_resultDelivered (f : Frame) (n : Word) (d : Bool) : (s.beginExchange f n d).resultDelivered = s.resultDelivered := rfl
@[simp] theorem State.beginExchange_reqOp (f : Frame) (n : Word) (d : Bool) : (s.beginExchange f n d).reqOp = s.reqOp := rfl
@[simp] theorem State.beginExchange_reqId (f : Frame) (n : Word) (d : Bool) : (s.beginExchange f n d).reqId = s.reqId := rfl
@[simp] theorem State.beginExchange_reqArg (f : Frame) (n : Word) (d : Bool) : (s.beginExchange f n d).reqArg = s.reqArg := rfl
@[simp] theorem State.beginExchange_reqRlen (f : Frame) (n : Word) (d : Bool) : (s.beginExchange f n d).reqRlen = s.reqRlen := rfl
@[simp] theorem State.beginExchange_reqHasData (f : Frame) (n : Word) (d : Bool) : (s.beginExchange f n d).reqHasData = s.reqHasData := rfl
@[simp] theorem State.beginExchange_reqLockOp (f : Frame) (n : Word) (d : Bool) : (s.beginExchange f n d).reqLockOp = s.reqLockOp := rfl
@[simp] theorem State.beginExchange_reqOld (f : Frame) (n : Word) (d : Bool) : (s.beginExchange f n d).reqOld = s.reqOld := rfl
@[simp] theorem State.beginExchange_reqNew (f : Frame) (n : Word) (d : Bool) : (s.beginExchange f n d).reqNew = s.reqNew := rfl
@[simp] theorem State.beginExchange_dbuf (f : Frame) (n : Word) (d : Bool) : (s.beginExchange f n d).dbuf = s.dbuf := rfl
@[simp] theorem State.beginExchange_frameBuf (f : Frame) (n : Word) (d : Bool) : (s.beginExchange f n d).frameBuf = f := rfl
@[simp] theorem State.beginExchange_crc7 (f : Frame) (n : Word) (d : Bool) : (s.beginExchange f n d).crc7 = s.crc7 := rfl
@[simp] theorem State.beginExchange_crc16 (f : Frame) (n : Word) (d : Bool) : (s.beginExchange f n d).crc16 = s.crc16 := rfl
@[simp] theorem State.beginExchange_idleCnt (f : Frame) (n : Word) (d : Bool) : (s.beginExchange f n d).idleCnt = s.idleCnt := rfl
@[simp] theorem State.beginExchange_retryCnt (f : Frame) (n : Word) (d : Bool) : (s.beginExchange f n d).retryCnt = s.retryCnt := rfl
@[simp] theorem State.beginExchange_busyCnt (f : Frame) (n : Word) (d : Bool) : (s.beginExchange f n d).busyCnt = s.busyCnt := rfl
@[simp] theorem State.beginExchange_status (f : Frame) (n : Word) (d : Bool) : (s.beginExchange f n d).status = s.status := rfl
@[simp] theorem State.beginExchange_error (f : Frame) (n : Word) (d : Bool) : (s.beginExchange f n d).error = s.error := rfl
@[simp] theorem State.beginExchange_token (f : Frame) (n : Word) (d : Bool) : (s.beginExchange f n d).token = s.token := rfl
@[simp] theorem State.beginExchange_rbuf (f : Frame) (n : Word) (d : Bool) : (s.beginExchange f n d).rbuf = s.rbuf := rfl
@[simp] theorem State.beginExchange_rleft (f : Frame) (n : Word) (d : Bool) : (s.beginExchange f n d).rleft = s.rleft := rfl
@[simp] theorem State.beginExchange_dptr (f : Frame) (n : Word) (d : Bool) : (s.beginExchange f n d).dptr = s.dptr := rfl
@[simp] theorem State.beginExchange_seq (f : Frame) (n : Word) (d : Bool) : (s.beginExchange f n d).seq = s.seq := rfl
@[simp] theorem State.beginExchange_xRlen (f : Frame) (n : Word) (d : Bool) : (s.beginExchange f n d).xRlen = n := rfl
@[simp] theorem State.beginExchange_xHasData (f : Frame) (n : Word) (d : Bool) : (s.beginExchange f n d).xHasData = d := rfl
@[simp] theorem State.beginExchange_payload (f : Frame) (n : Word) (d : Bool) : (s.beginExchange f n d).payload = s.payload := rfl
@[simp] theorem State.beginExchange_params (f : Frame) (n : Word) (d : Bool) : (s.beginExchange f n d).params = s.params := rfl
@[simp] theorem State.beginExchange_hostPort (f : Frame) (n : Word) (d : Bool) : (s.beginExchange f n d).hostPort = s.hostPort := rfl
@[simp] theorem State.beginExchange_rx (f : Frame) (n : Word) (d : Bool) : (s.beginExchange f n d).rx = s.rx := rfl
@[simp] theorem State.beginExchange_resetPin (f : Frame) (n : Word) (d : Bool) : (s.beginExchange f n d).resetPin = s.resetPin := rfl
@[simp] theorem State.beginExchange_stalled (f : Frame) (n : Word) (d : Bool) : (s.beginExchange f n d).stalled = s.stalled := rfl
@[simp] theorem State.beginExchange_trace (f : Frame) (n : Word) (d : Bool) : (s.beginExchange f n d).trace = s.trace ++ [.cs true] := rfl
@[simp] theorem State.beginExchange_fresh (f : Frame) (n : Word) (d : Bool) : (s.beginExchange f n d).fresh = s.fresh := rfl

/-! `beginPoll` -/

@[simp] theorem State.beginPoll_phase (p : Phase) : (s.beginPoll p).phase = p := rfl
@[simp] theorem State.beginPoll_cs (p : Phase) : (s.beginPoll p).cs = s.cs := rfl
@[simp] theorem State.beginPoll_initState (p : Phase) : (s.beginPoll p).initState = s.initState := rfl
@[simp] theorem State.beginPoll_failKind (p : Phase) : (s.beginPoll p).failKind = s.failKind := rfl
@[simp] theorem State.beginPoll_failInfo (p : Phase) : (s.beginPoll p).failInfo = s.failInfo := rfl
@[simp] theorem State.beginPoll_ocrPre (p : Phase) : (s.beginPoll p).ocrPre = s.ocrPre := rfl
@[simp] theorem State.beginPoll_ocrPost (p : Phase) : (s.beginPoll p).ocrPost = s.ocrPost := rfl
@[simp] theorem State.beginPoll_result (p : Phase) : (s.beginPoll p).result = s.result := rfl
@[simp] theorem State.beginPoll_resultDelivered (p : Phase) : (s.beginPoll p).resultDelivered = s.resultDelivered := rfl
@[simp] theorem State.beginPoll_reqOp (p : Phase) : (s.beginPoll p).reqOp = s.reqOp := rfl
@[simp] theorem State.beginPoll_reqId (p : Phase) : (s.beginPoll p).reqId = s.reqId := rfl
@[simp] theorem State.beginPoll_reqArg (p : Phase) : (s.beginPoll p).reqArg = s.reqArg := rfl
@[simp] theorem State.beginPoll_reqRlen (p : Phase) : (s.beginPoll p).reqRlen = s.reqRlen := rfl
@[simp] theorem State.beginPoll_reqHasData (p : Phase) : (s.beginPoll p).reqHasData = s.reqHasData := rfl
@[simp] theorem State.beginPoll_reqLockOp (p : Phase) : (s.beginPoll p).reqLockOp = s.reqLockOp := rfl
@[simp] theorem State.beginPoll_reqOld (p : Phase) : (s.beginPoll p).reqOld = s.reqOld := rfl
@[simp] theorem State.beginPoll_reqNew (p : Phase) : (s.beginPoll p).reqNew = s.reqNew := rfl
@[simp] theorem State.beginPoll_dbuf (p : Phase) : (s.beginPoll p).dbuf = s.dbuf := rfl
@[simp] theorem State.beginPoll_frameBuf (p : Phase) : (s.beginPoll p).frameBuf = s.frameBuf := rfl
@[simp] theorem State.beginPoll_crc7 (p : Phase) : (s.beginPoll p).crc7 = s.crc7 := rfl
@[simp] theorem State.beginPoll_crc16 (p : Phase) : (s.beginPoll p).crc16 = s.crc16 := rfl
@[simp] theorem State.beginPoll_idleCnt (p : Phase) : (s.beginPoll p).idleCnt = 0 := rfl
@[simp] theorem State.beginPoll_retryCnt (p : Phase) : (s.beginPoll p).retryCnt = s.retryCnt := rfl
@[simp] theorem State.beginPoll_busyCnt (p : Phase) : (s.beginPoll p).busyCnt = s.busyCnt := rfl
@[simp] theorem State.beginPoll_status (p : Phase) : (s.beginPoll p).status = s.status := rfl
@[simp] theorem State.beginPoll_error (p : Phase) : (s.beginPoll p).error = s.error := rfl
@[simp] theorem State.beginPoll_token (p : Phase) : (s.beginPoll p).token = s.token := rfl
@[simp] theorem State.beginPoll_rbuf (p : Phase) : (s.beginPoll p).rbuf = [] := rfl
@[simp] theorem State.beginPoll_rleft (p : Phase) : (s.beginPoll p).rleft = s.rleft := rfl
@[simp] theorem State.beginPoll_dptr (p : Phase) : (s.beginPoll p).dptr = s.dptr := rfl
@[simp] theorem State.beginPoll_seq (p : Phase) : (s.beginPoll p).seq = s.seq := rfl
@[simp] theorem State.beginPoll_xRlen (p : Phase) : (s.beginPoll p).xRlen = s.xRlen := rfl
@[simp] theorem State.beginPoll_xHasData (p : Phase) : (s.beginPoll p).xHasData = s.xHasData := rfl
@[simp] theorem State.beginPoll_payload (p : Phase) : (s.beginPoll p).payload = s.payload := rfl
@[simp] theorem State.beginPoll_params (p : Phase) : (s.beginPoll p).params = s.params := rfl
@[simp] theorem State.beginPoll_hostPort (p : Phase) : (s.beginPoll p).hostPort = s.hostPort := rfl
@[simp] theorem State.beginPoll_rx (p : Phase) : (s.beginPoll p).rx = s.rx := rfl
@[simp] theorem State.beginPoll_resetPin (p : Phase) : (s.beginPoll p).resetPin = s.resetPin := rfl
@[simp] theorem State.beginPoll_stalled (p : Phase) : (s.beginPoll p).stalled = s.stalled := rfl
@[simp] theorem State.beginPoll_trace (p : Phase) : (s.beginPoll p).trace = s.trace := rfl
@[simp] theorem State.beginPoll_fresh (p : Phase) : (s.beginPoll p).fresh = s.fresh := rfl

/-! `responseDone` -/

@[simp] theorem State.responseDone_phase (l : List Byte) : (s.responseDone l).phase = if dataFollows (l.headD s.status) s.xHasData then .dStart else .xRelease := rfl
@[simp] theorem State.responseDone_cs (l : List Byte) : (s.responseDone l).cs = s.cs := rfl
@[simp] theorem State.responseDone_initState (l : List Byte) : (s.responseDone l).initState = s.initState := rfl
@[simp] theorem State.responseDone_failKind (l : List Byte) : (s.responseDone l).failKind = s.failKind := rfl
@[simp] theorem State.responseDone_failInfo (l : List Byte) : (s.responseDone l).failInfo = s.failInfo := rfl
@[simp] theorem State.responseDone_ocrPre (l : List Byte) : (s.responseDone l).ocrPre = s.ocrPre := rfl
@[simp] theorem State.responseDone_ocrPost (l : List Byte) : (s.responseDone l).ocrPost = s.ocrPost := rfl
@[simp] theorem State.responseDone_result (l : List Byte) : (s.responseDone l).result = s.result := rfl
@[simp] theorem State.responseDone_resultDelivered (l : List Byte) : (s.responseDone l).resultDelivered = s.resultDelivered := rfl
@[simp] theorem State.responseDone_reqOp (l : List Byte) : (s.responseDone l).reqOp = s.reqOp := rfl
@[simp] theorem State.responseDone_reqId (l : List Byte) : (s.responseDone l).reqId = s.reqId := rfl
@[simp] theorem State.responseDone_reqArg (l : List Byte) : (s.responseDone l).reqArg = s.reqArg := rfl
@[simp] theorem State.responseDone_reqRlen (l : List Byte) : (s.responseDone l).reqRlen = s.reqRlen := rfl
@[simp] theorem State.responseDone_reqHasData (l : List Byte) : (s.responseDone l).reqHasData = s.reqHasData := rfl
@[simp] theorem State.responseDone_reqLockOp (l : List Byte) : (s.responseDone l).reqLockOp = s.reqLockOp := rfl
@[simp] theorem State.responseDone_reqOld (l : List Byte) : (s.responseDone l).reqOld = s.reqOld := rfl
@[simp] theorem State.responseDone_reqNew (l : List Byte) : (s.responseDone l).reqNew = s.reqNew := rfl
@[simp] theorem State.responseDone_dbuf (l : List Byte) : (s.responseDone l).dbuf = s.dbuf := rfl
@[simp] theorem State.responseDone_frameBuf (l : List Byte) : (s.responseDone l).frameBuf = s.frameBuf := rfl
@[simp] theorem State.responseDone_crc7 (l : List Byte) : (s.responseDone l).crc7 = s.crc7 := rfl
@[simp] theorem State.responseDone_crc16 (l : List Byte) : (s.responseDone l).crc16 = s.crc16 := rfl
@[simp] theorem State.responseDone_idleCnt (l : List Byte) : (s.responseDone l).idleCnt = s.idleCnt := rfl
@[simp] theorem State.responseDone_retryCnt (l : List Byte) : (s.responseDone l).retryCnt = s.retryCnt := rfl
@[simp] theorem State.responseDone_busyCnt (l : List Byte) : (s.responseDone l).busyCnt = s.busyCnt := rfl
@[simp] theorem State.responseDone_status (l : List Byte) : (s.responseDone l).status = l.headD s.status := rfl
@[simp] theorem State.responseDone_error (l : List Byte) : (s.responseDone l).error = errorOf (l.headD s.status) := rfl
@[simp] theorem State.responseDone_token (l : List Byte) : (s.responseDone l).token = s.token := rfl
@[simp] theorem State.responseDone_rbuf (l : List Byte) : (s.responseDone l).rbuf = s.rbuf := rfl
@[simp] theorem State.responseDone_rleft (l : List Byte) : (s.responseDone l).rleft = s.rleft := rfl
@[simp] theorem State.responseDone_dptr (l : List Byte) : (s.responseDone l).dptr = s.dptr := rfl
@[simp] theorem State.responseDone_seq (l : List Byte) : (s.responseDone l).seq = s.seq := rfl
@[simp] theorem State.responseDone_xRlen (l : List Byte) : (s.responseDone l).xRlen = s.xRlen := rfl
@[simp] theorem State.responseDone_xHasData (l : List Byte) : (s.responseDone l).xHasData = s.xHasData := rfl
@[simp] theorem State.responseDone_payload (l : List Byte) : (s.responseDone l).payload = l.tail := rfl
@[simp] theorem State.responseDone_params (l : List Byte) : (s.responseDone l).params = s.params := rfl
@[simp] theorem State.responseDone_hostPort (l : List Byte) : (s.responseDone l).hostPort = s.hostPort := rfl
@[simp] theorem State.responseDone_rx (l : List Byte) : (s.responseDone l).rx = s.rx := rfl
@[simp] theorem State.responseDone_resetPin (l : List Byte) : (s.responseDone l).resetPin = s.resetPin := rfl
@[simp] theorem State.responseDone_stalled (l : List Byte) : (s.responseDone l).stalled = s.stalled := rfl
@[simp] theorem State.responseDone_trace (l : List Byte) : (s.responseDone l).trace = s.trace := rfl
@[simp] theorem State.responseDone_fresh (l : List Byte) : (s.responseDone l).fresh = s.fresh := rfl

/-! `collectByte` -/

@[simp] theorem State.collectByte_phase : s.collectByte.phase = s.phase := rfl
@[simp] theorem State.collectByte_cs : s.collectByte.cs = s.cs := rfl
@[simp] theorem State.collectByte_initState : s.collectByte.initState = s.initState := rfl
@[simp] theorem State.collectByte_failKind : s.collectByte.failKind = s.failKind := rfl
@[simp] theorem State.collectByte_failInfo : s.collectByte.failInfo = s.failInfo := rfl
@[simp] theorem State.collectByte_ocrPre : s.collectByte.ocrPre = s.ocrPre := rfl
@[simp] theorem State.collectByte_ocrPost : s.collectByte.ocrPost = s.ocrPost := rfl
@[simp] theorem State.collectByte_result : s.collectByte.result = s.result := rfl
@[simp] theorem State.collectByte_resultDelivered : s.collectByte.resultDelivered = s.resultDelivered := rfl
@[simp] theorem State.collectByte_reqOp : s.collectByte.reqOp = s.reqOp := rfl
@[simp] theorem State.collectByte_reqId : s.collectByte.reqId = s.reqId := rfl
@[simp] theorem State.collectByte_reqArg : s.collectByte.reqArg = s.reqArg := rfl
@[simp] theorem State.collectByte_reqRlen : s.collectByte.reqRlen = s.reqRlen := rfl
@[simp] theorem State.collectByte_reqHasData : s.collectByte.reqHasData = s.reqHasData := rfl
@[simp] theorem State.collectByte_reqLockOp : s.collectByte.reqLockOp = s.reqLockOp := rfl
@[simp] theorem State.collectByte_reqOld : s.collectByte.reqOld = s.reqOld := rfl
@[simp] theorem State.collectByte_reqNew : s.collectByte.reqNew = s.reqNew := rfl
@[simp] theorem State.collectByte_dbuf : s.collectByte.dbuf = s.dbuf := rfl
@[simp] theorem State.collectByte_frameBuf : s.collectByte.frameBuf = s.frameBuf := rfl
@[simp] theorem State.collectByte_crc7 : s.collectByte.crc7 = s.crc7 := rfl
@[simp] theorem State.collectByte_crc16 : s.collectByte.crc16 = s.crc16 := rfl
@[simp] theorem State.collectByte_idleCnt : s.collectByte.idleCnt = s.idleCnt := rfl
@[simp] theorem State.collectByte_retryCnt : s.collectByte.retryCnt = s.retryCnt := rfl
@[simp] theorem State.collectByte_busyCnt : s.collectByte.busyCnt = s.busyCnt := rfl
@[simp] theorem State.collectByte_status : s.collectByte.status = s.status := rfl
@[simp] theorem State.collectByte_error : s.collectByte.error = s.error := rfl
@[simp] theorem State.collectByte_token : s.collectByte.token = s.token := rfl
@[simp] theorem State.collectByte_rbuf : s.collectByte.rbuf = s.rbuf ++ [s.rxByte] := rfl
@[simp] theorem State.collectByte_rleft : s.collectByte.rleft = s.rleft - 1 := rfl
@[simp] theorem State.collectByte_dptr : s.collectByte.dptr = s.dptr := rfl
@[simp] theorem State.collectByte_seq : s.collectByte.seq = s.seq := rfl
@[simp] theorem State.collectByte_xRlen : s.collectByte.xRlen = s.xRlen := rfl
@[simp] theorem State.collectByte_xHasData : s.collectByte.xHasData = s.xHasData := rfl
@[simp] theorem State.collectByte_payload : s.collectByte.payload = s.payload := rfl
@[simp] theorem State.collectByte_params : s.collectByte.params = s.params := rfl
@[simp] theorem State.collectByte_hostPort : s.collectByte.hostPort = s.hostPort := rfl
@[simp] theorem State.collectByte_rx : s.collectByte.rx = s.rx.tail := rfl
@[simp] theorem State.collectByte_resetPin : s.collectByte.resetPin = s.resetPin := rfl
@[simp] theorem State.collectByte_stalled : s.collectByte.stalled = s.stalled := rfl
@[simp] theorem State.collectByte_trace : s.collectByte.trace = s.trace ++ [.xfer Config.fill s.rxByte] := rfl
@[simp] theorem State.collectByte_fresh : s.collectByte.fresh = if s.rx = [] then s.fresh + 1 else s.fresh := rfl

/-! `beginTrailer` -/

@[simp] theorem State.beginTrailer_phase : s.beginTrailer.phase = .dCrc 0 := rfl
@[simp] theorem State.beginTrailer_cs : s.beginTrailer.cs = s.cs := rfl
@[simp] theorem State.beginTrailer_initState : s.beginTrailer.initState = s.initState := rfl
@[simp] theorem State.beginTrailer_failKind : s.beginTrailer.failKind = s.failKind := rfl
@[simp] theorem State.beginTrailer_failInfo : s.beginTrailer.failInfo = s.failInfo := rfl
@[simp] theorem State.beginTrailer_ocrPre : s.beginTrailer.ocrPre = s.ocrPre := rfl
@[simp] theorem State.beginTrailer_ocrPost : s.beginTrailer.ocrPost = s.ocrPost := rfl
@[simp] theorem State.beginTrailer_result : s.beginTrailer.result = s.result := rfl
@[simp] theorem State.beginTrailer_resultDelivered : s.beginTrailer.resultDelivered = s.resultDelivered := rfl
@[simp] theorem State.beginTrailer_reqOp : s.beginTrailer.reqOp = s.reqOp := rfl
@[simp] theorem State.beginTrailer_reqId : s.beginTrailer.reqId = s.reqId := rfl
@[simp] theorem State.beginTrailer_reqArg : s.beginTrailer.reqArg = s.reqArg := rfl
@[simp] theorem State.beginTrailer_reqRlen : s.beginTrailer.reqRlen = s.reqRlen := rfl
@[simp] theorem State.beginTrailer_reqHasData : s.beginTrailer.reqHasData = s.reqHasData := rfl
@[simp] theorem State.beginTrailer_reqLockOp : s.beginTrailer.reqLockOp = s.reqLockOp := rfl
@[simp] theorem State.beginTrailer_reqOld : s.beginTrailer.reqOld = s.reqOld := rfl
@[simp] theorem State.beginTrailer_reqNew : s.beginTrailer.reqNew = s.reqNew := rfl
@[simp] theorem State.beginTrailer_dbuf : s.beginTrailer.dbuf = s.dbuf := rfl
@[simp] theorem State.beginTrailer_frameBuf : s.beginTrailer.frameBuf = s.frameBuf := rfl
@[simp] theorem State.beginTrailer_crc7 : s.beginTrailer.crc7 = s.crc7 := rfl
@[simp] theorem State.beginTrailer_crc16 : s.beginTrailer.crc16 = Machine.crc16 s.dbuf := rfl
@[simp] theorem State.beginTrailer_idleCnt : s.beginTrailer.idleCnt = s.idleCnt := rfl
@[simp] theorem State.beginTrailer_retryCnt : s.beginTrailer.retryCnt = s.retryCnt := rfl
@[simp] theorem State.beginTrailer_busyCnt : s.beginTrailer.busyCnt = s.busyCnt := rfl
@[simp] theorem State.beginTrailer_status : s.beginTrailer.status = s.status := rfl
@[simp] theorem State.beginTrailer_error : s.beginTrailer.error = s.error := rfl
@[simp] theorem State.beginTrailer_token : s.beginTrailer.token = s.token := rfl
@[simp] theorem State.beginTrailer_rbuf : s.beginTrailer.rbuf = s.rbuf := rfl
@[simp] theorem State.beginTrailer_rleft : s.beginTrailer.rleft = s.rleft := rfl
@[simp] theorem State.beginTrailer_dptr : s.beginTrailer.dptr = s.dptr := rfl
@[simp] theorem State.beginTrailer_seq : s.beginTrailer.seq = s.seq := rfl
@[simp] theorem State.beginTrailer_xRlen : s.beginTrailer.xRlen = s.xRlen := rfl
@[simp] theorem State.beginTrailer_xHasData : s.beginTrailer.xHasData = s.xHasData := rfl
@[simp] theorem State.beginTrailer_payload : s.beginTrailer.payload = s.payload := rfl
@[simp] theorem State.beginTrailer_params : s.beginTrailer.params = s.params := rfl
@[simp] theorem State.beginTrailer_hostPort : s.beginTrailer.hostPort = s.hostPort := rfl
@[simp] theorem State.beginTrailer_rx : s.beginTrailer.rx = s.rx := rfl
@[simp] theorem State.beginTrailer_resetPin : s.beginTrailer.resetPin = s.resetPin := rfl
@[simp] theorem State.beginTrailer_stalled : s.beginTrailer.stalled = s.stalled := rfl
@[simp] theorem State.beginTrailer_trace : s.beginTrailer.trace = s.trace := rfl
@[simp] theorem State.beginTrailer_fresh : s.beginTrailer.fresh = s.fresh := rfl

/-! `beginBusy` -/

@[simp] theorem State.beginBusy_phase : s.beginBusy.phase = .dBusy := rfl
@[simp] theorem State.beginBusy_cs : s.beginBusy.cs = s.cs := rfl
@[simp] theorem State.beginBusy_initState : s.beginBusy.initState = s.initState := rfl
@[simp] theorem State.beginBusy_failKind : s.beginBusy.failKind = s.failKind := rfl
@[simp] theorem State.beginBusy_failInfo : s.beginBusy.failInfo = s.failInfo := rfl
@[simp] theorem State.beginBusy_ocrPre : s.beginBusy.ocrPre = s.ocrPre := rfl
@[simp] theorem State.beginBusy_ocrPost : s.beginBusy.ocrPost = s.ocrPost := rfl
@[simp] theorem State.beginBusy_result : s.beginBusy.result = s.result := rfl
@[simp] theorem State.beginBusy_resultDelivered : s.beginBusy.resultDelivered = s.resultDelivered := rfl
@[simp] theorem State.beginBusy_reqOp : s.beginBusy.reqOp = s.reqOp := rfl
@[simp] theorem State.beginBusy_reqId : s.beginBusy.reqId = s.reqId := rfl
@[simp] theorem State.beginBusy_reqArg : s.beginBusy.reqArg = s.reqArg := rfl
@[simp] theorem State.beginBusy_reqRlen : s.beginBusy.reqRlen = s.reqRlen := rfl
@[simp] theorem State.beginBusy_reqHasData : s.beginBusy.reqHasData = s.reqHasData := rfl
@[simp] theorem State.beginBusy_reqLockOp : s.beginBusy.reqLockOp = s.reqLockOp := rfl
@[simp] theorem State.beginBusy_reqOld : s.beginBusy.reqOld = s.reqOld := rfl
@[simp] theorem State.beginBusy_reqNew : s.beginBusy.reqNew = s.reqNew := rfl
@[simp] theorem State.beginBusy_dbuf : s.beginBusy.dbuf = s.dbuf := rfl
@[simp] theorem State.beginBusy_frameBuf : s.beginBusy.frameBuf = s.frameBuf := rfl
@[simp] theorem State.beginBusy_crc7 : s.beginBusy.crc7 = s.crc7 := rfl
@[simp] theorem State.beginBusy_crc16 : s.beginBusy.crc16 = s.crc16 := rfl
@[simp] theorem State.beginBusy_idleCnt : s.beginBusy.idleCnt = s.idleCnt := rfl
@[simp] theorem State.beginBusy_retryCnt : s.beginBusy.retryCnt = s.retryCnt := rfl
@[simp] theorem State.beginBusy_busyCnt : s.beginBusy.busyCnt = 0 := rfl
@[simp] theorem State.beginBusy_status : s.beginBusy.status = s.status := rfl
@[simp] theorem State.beginBusy_error : s.beginBusy.error = s.error := rfl
@[simp] theorem State.beginBusy_token : s.beginBusy.token = s.token := rfl
@[simp] theorem State.beginBusy_rbuf : s.beginBusy.rbuf = s.rbuf := rfl
@[simp] theorem State.beginBusy_rleft : s.beginBusy.rleft = s.rleft := rfl
@[simp] theorem State.beginBusy_dptr : s.beginBusy.dptr = s.dptr := rfl
@[simp] theorem State.beginBusy_seq : s.beginBusy.seq = s.seq := rfl
@[simp] theorem State.beginBusy_xRlen : s.beginBusy.xRlen = s.xRlen := rfl
@[simp] theorem State.beginBusy_xHasData : s.beginBusy.xHasData = s.xHasData := rfl
@[simp] theorem State.beginBusy_payload : s.beginBusy.payload = s.payload := rfl
@[simp] theorem State.beginBusy_params : s.beginBusy.params = s.params := rfl
@[simp] theorem State.beginBusy_hostPort : s.beginBusy.hostPort = s.hostPort := rfl
@[simp] theorem State.beginBusy_rx : s.beginBusy.rx = s.rx := rfl
@[simp] theorem State.beginBusy_resetPin : s.beginBusy.resetPin = s.resetPin := rfl
@[simp] theorem State.beginBusy_stalled : s.beginBusy.stalled = s.stalled := rfl
@[simp] theorem State.beginBusy_trace : s.beginBusy.trace = s.trace := rfl
@[simp] theorem State.beginBusy_fresh : s.beginBusy.fresh = s.fresh := rfl

/-! `deliver` -/

@[simp] theorem State.deliver_phase (r : Result) : (s.deliver r).phase = .idle := rfl
@[simp] theorem State.deliver_cs (r : Result) : (s.deliver r).cs = s.cs := rfl
@[simp] theorem State.deliver_initState (r : Result) : (s.deliver r).initState = s.initState := rfl
@[simp] theorem State.deliver_failKind (r : Result) : (s.deliver r).failKind = s.failKind := rfl
@[simp] theorem State.deliver_failInfo (r : Result) : (s.deliver r).failInfo = s.failInfo := rfl
@[simp] theorem State.deliver_ocrPre (r : Result) : (s.deliver r).ocrPre = s.ocrPre := rfl
@[simp] theorem State.deliver_ocrPost (r : Result) : (s.deliver r).ocrPost = s.ocrPost := rfl
@[simp] theorem State.deliver_result (r : Result) : (s.deliver r).result = r := rfl
@[simp] theorem State.deliver_resultDelivered (r : Result) : (s.deliver r).resultDelivered = true := rfl
@[simp] theorem State.deliver_reqOp (r : Result) : (s.deliver r).reqOp = s.reqOp := rfl
@[simp] theorem State.deliver_reqId (r : Result) : (s.deliver r).reqId = s.reqId := rfl
@[simp] theorem State.deliver_reqArg (r : Result) : (s.deliver r).reqArg = s.reqArg := rfl
@[simp] theorem State.deliver_reqRlen (r : Result) : (s.deliver r).reqRlen = s.reqRlen := rfl
@[simp] theorem State.deliver_reqHasData (r : Result) : (s.deliver r).reqHasData = s.reqHasData := rfl
@[simp] theorem State.deliver_reqLockOp (r : Result) : (s.deliver r).reqLockOp = s.reqLockOp := rfl
@[simp] theorem State.deliver_reqOld (r : Result) : (s.deliver r).reqOld = s.reqOld := rfl
@[simp] theorem State.deliver_reqNew (r : Result) : (s.deliver r).reqNew = s.reqNew := rfl
@[simp] theorem State.deliver_dbuf (r : Result) : (s.deliver r).dbuf = s.dbuf := rfl
@[simp] theorem State.deliver_frameBuf (r : Result) : (s.deliver r).frameBuf = s.frameBuf := rfl
@[simp] theorem State.deliver_crc7 (r : Result) : (s.deliver r).crc7 = s.crc7 := rfl
@[simp] theorem State.deliver_crc16 (r : Result) : (s.deliver r).crc16 = s.crc16 := rfl
@[simp] theorem State.deliver_idleCnt (r : Result) : (s.deliver r).idleCnt = s.idleCnt := rfl
@[simp] theorem State.deliver_retryCnt (r : Result) : (s.deliver r).retryCnt = s.retryCnt := rfl
@[simp] theorem State.deliver_busyCnt (r : Result) : (s.deliver r).busyCnt = s.busyCnt := rfl
@[simp] theorem State.deliver_status (r : Result) : (s.deliver r).status = s.status := rfl
@[simp] theorem State.deliver_error (r : Result) : (s.deliver r).error = s.error := rfl
@[simp] theorem State.deliver_token (r : Result) : (s.deliver r).token = s.token := rfl
@[simp] theorem State.deliver_rbuf (r : Result) : (s.deliver r).rbuf = s.rbuf := rfl
@[simp] theorem State.deliver_rleft (r : Result) : (s.deliver r).rleft = s.rleft := rfl
@[simp] theorem State.deliver_dptr (r : Result) : (s.deliver r).dptr = s.dptr := rfl
@[simp] theorem State.deliver_seq (r : Result) : (s.deliver r).seq = s.seq := rfl
@[simp] theorem State.deliver_xRlen (r : Result) : (s.deliver r).xRlen = s.xRlen := rfl
@[simp] theorem State.deliver_xHasData (r : Result) : (s.deliver r).xHasData = s.xHasData := rfl
@[simp] theorem State.deliver_payload (r : Result) : (s.deliver r).payload = s.payload := rfl
@[simp] theorem State.deliver_params (r : Result) : (s.deliver r).params = s.params := rfl
@[simp] theorem State.deliver_hostPort (r : Result) : (s.deliver r).hostPort = s.hostPort := rfl
@[simp] theorem State.deliver_rx (r : Result) : (s.deliver r).rx = s.rx := rfl
@[simp] theorem State.deliver_resetPin (r : Result) : (s.deliver r).resetPin = s.resetPin := rfl
@[simp] theorem State.deliver_stalled (r : Result) : (s.deliver r).stalled = s.stalled := rfl
@[simp] theorem State.deliver_trace (r : Result) : (s.deliver r).trace = s.trace := rfl
@[simp] theorem State.deliver_fresh (r : Result) : (s.deliver r).fresh = s.fresh := rfl

/-! `drawn` -/

@[simp] theorem State.drawn_phase : s.drawn.phase = s.phase := rfl
@[simp] theorem State.drawn_cs : s.drawn.cs = s.cs := rfl
@[simp] theorem State.drawn_initState : s.drawn.initState = s.initState := rfl
@[simp] theorem State.drawn_failKind : s.drawn.failKind = s.failKind := rfl
@[simp] theorem State.drawn_failInfo : s.drawn.failInfo = s.failInfo := rfl
@[simp] theorem State.drawn_ocrPre : s.drawn.ocrPre = s.ocrPre := rfl
@[simp] theorem State.drawn_ocrPost : s.drawn.ocrPost = s.ocrPost := rfl
@[simp] theorem State.drawn_result : s.drawn.result = s.result := rfl
@[simp] theorem State.drawn_resultDelivered : s.drawn.resultDelivered = s.resultDelivered := rfl
@[simp] theorem State.drawn_reqOp : s.drawn.reqOp = s.reqOp := rfl
@[simp] theorem State.drawn_reqId : s.drawn.reqId = s.reqId := rfl
@[simp] theorem State.drawn_reqArg : s.drawn.reqArg = s.reqArg := rfl
@[simp] theorem State.drawn_reqRlen : s.drawn.reqRlen = s.reqRlen := rfl
@[simp] theorem State.drawn_reqHasData : s.drawn.reqHasData = s.reqHasData := rfl
@[simp] theorem State.drawn_reqLockOp : s.drawn.reqLockOp = s.reqLockOp := rfl
@[simp] theorem State.drawn_reqOld : s.drawn.reqOld = s.reqOld := rfl
@[simp] theorem State.drawn_reqNew : s.drawn.reqNew = s.reqNew := rfl
@[simp] theorem State.drawn_dbuf : s.drawn.dbuf = s.dbuf := rfl
@[simp] theorem State.drawn_frameBuf : s.drawn.frameBuf = s.frameBuf := rfl
@[simp] theorem State.drawn_crc7 : s.drawn.crc7 = s.crc7 := rfl
@[simp] theorem State.drawn_crc16 : s.drawn.crc16 = s.crc16 := rfl
@[simp] theorem State.drawn_idleCnt : s.drawn.idleCnt = s.idleCnt := rfl
@[simp] theorem State.drawn_retryCnt : s.drawn.retryCnt = s.retryCnt := rfl
@[simp] theorem State.drawn_busyCnt : s.drawn.busyCnt = s.busyCnt := rfl
@[simp] theorem State.drawn_status : s.drawn.status = s.status := rfl
@[simp] theorem State.drawn_error : s.drawn.error = s.error := rfl
@[simp] theorem State.drawn_token : s.drawn.token = s.token := rfl
@[simp] theorem State.drawn_rbuf : s.drawn.rbuf = s.rbuf := rfl
@[simp] theorem State.drawn_rleft : s.drawn.rleft = s.rleft := rfl
@[simp] theorem State.drawn_dptr : s.drawn.dptr = s.dptr := rfl
@[simp] theorem State.drawn_seq : s.drawn.seq = s.seq := rfl
@[simp] theorem State.drawn_xRlen : s.drawn.xRlen = s.xRlen := rfl
@[simp] theorem State.drawn_xHasData : s.drawn.xHasData = s.xHasData := rfl
@[simp] theorem State.drawn_payload : s.drawn.payload = s.payload := rfl
@[simp] theorem State.drawn_params : s.drawn.params = s.params := rfl
@[simp] theorem State.drawn_hostPort : s.drawn.hostPort = s.hostPort := rfl
@[simp] theorem State.drawn_rx : s.drawn.rx = s.rx := rfl
@[simp] theorem State.drawn_resetPin : s.drawn.resetPin = s.resetPin := rfl
@[simp] theorem State.drawn_stalled : s.drawn.stalled = s.stalled := rfl
@[simp] theorem State.drawn_trace : s.drawn.trace = s.trace := rfl
@[simp] theorem State.drawn_fresh : s.drawn.fresh = s.fresh + 1 := rfl

/-! `takeRequest` -/

@[simp] theorem State.takeRequest_phase : s.takeRequest.phase = s.phase := rfl
@[simp] theorem State.takeRequest_cs : s.takeRequest.cs = s.cs := rfl
@[simp] theorem State.takeRequest_initState : s.takeRequest.initState = s.initState := rfl
@[simp] theorem State.takeRequest_failKind : s.takeRequest.failKind = s.failKind := rfl
@[simp] theorem State.takeRequest_failInfo : s.takeRequest.failInfo = s.failInfo := rfl
@[simp] theorem State.takeRequest_ocrPre : s.takeRequest.ocrPre = s.ocrPre := rfl
@[simp] theorem State.takeRequest_ocrPost : s.takeRequest.ocrPost = s.ocrPost := rfl
@[simp] theorem State.takeRequest_result : s.takeRequest.result = s.result := rfl
@[simp] theorem State.takeRequest_resultDelivered : s.takeRequest.resultDelivered = s.resultDelivered := rfl
@[simp] theorem State.takeRequest_reqOp : s.takeRequest.reqOp = s.reqOp := rfl
@[simp] theorem State.takeRequest_reqId : s.takeRequest.reqId = s.reqId := rfl
@[simp] theorem State.takeRequest_reqArg : s.takeRequest.reqArg = s.reqArg := rfl
@[simp] theorem State.takeRequest_reqRlen : s.takeRequest.reqRlen = s.reqRlen := rfl
@[simp] theorem State.takeRequest_reqHasData : s.takeRequest.reqHasData = s.reqHasData := rfl
@[simp] theorem State.takeRequest_reqLockOp : s.takeRequest.reqLockOp = s.reqLockOp := rfl
@[simp] theorem State.takeRequest_reqOld : s.takeRequest.reqOld = s.reqOld := rfl
@[simp] theorem State.takeRequest_reqNew : s.takeRequest.reqNew = s.reqNew := rfl
@[simp] theorem State.takeRequest_dbuf : s.takeRequest.dbuf = s.dbuf := rfl
@[simp] theorem State.takeRequest_frameBuf : s.takeRequest.frameBuf = s.frameBuf := rfl
@[simp] theorem State.takeRequest_crc7 : s.takeRequest.crc7 = s.crc7 := rfl
@[simp] theorem State.takeRequest_crc16 : s.takeRequest.crc16 = s.crc16 := rfl
@[simp] theorem State.takeRequest_idleCnt : s.takeRequest.idleCnt = s.idleCnt := rfl
@[simp] theorem State.takeRequest_retryCnt : s.takeRequest.retryCnt = s.retryCnt := rfl
@[simp] theorem State.takeRequest_busyCnt : s.takeRequest.busyCnt = s.busyCnt := rfl
@[simp] theorem State.takeRequest_status : s.takeRequest.status = s.status := rfl
@[simp] theorem State.takeRequest_error : s.takeRequest.error = s.error := rfl
@[simp] theorem State.takeRequest_token : s.takeRequest.token = s.token := rfl
@[simp] theorem State.takeRequest_rbuf : s.takeRequest.rbuf = s.rbuf := rfl
@[simp] theorem State.takeRequest_rleft : s.takeRequest.rleft = s.rleft := rfl
@[simp] theorem State.takeRequest_dptr : s.takeRequest.dptr = s.dptr := rfl
@[simp] theorem State.takeRequest_seq : s.takeRequest.seq = s.seq := rfl
@[simp] theorem State.takeRequest_xRlen : s.takeRequest.xRlen = s.xRlen := rfl
@[simp] theorem State.takeRequest_xHasData : s.takeRequest.xHasData = s.xHasData := rfl
@[simp] theorem State.takeRequest_payload : s.takeRequest.payload = s.payload := rfl
@[simp] theorem State.takeRequest_params : s.takeRequest.params = s.params := rfl
@[simp] theorem State.takeRequest_hostPort : s.takeRequest.hostPort = s.hostPort.tail := rfl
@[simp] theorem State.takeRequest_rx : s.takeRequest.rx = s.rx := rfl
@[simp] theorem State.takeRequest_resetPin : s.takeRequest.resetPin = s.resetPin := rfl
@[simp] theorem State.takeRequest_stalled : s.takeRequest.stalled = s.stalled := rfl
@[simp] theorem State.takeRequest_trace : s.takeRequest.trace = s.trace := rfl
@[simp] theorem State.takeRequest_fresh : s.takeRequest.fresh = s.fresh := rfl

/-! `latchCommand` -/

@[simp] theorem State.latchCommand_phase (op : HostOp) (i : Byte) (a n : Word) (d : Option (List Byte)) : (s.latchCommand op i a n d).phase = s.phase := rfl
@[simp] theorem State.latchCommand_cs (op : HostOp) (i : Byte) (a n : Word) (d : Option (List Byte)) : (s.latchCommand op i a n d).cs = s.cs := rfl
@[simp] theorem State.latchCommand_initState (op : HostOp) (i : Byte) (a n : Word) (d : Option (List Byte)) : (s.latchCommand op i a n d).initState = s.initState := rfl
@[simp] theorem State.latchCommand_failKind (op : HostOp) (i : Byte) (a n : Word) (d : Option (List Byte)) : (s.latchCommand op i a n d).failKind = s.failKind := rfl
@[simp] theorem State.latchCommand_failInfo (op : HostOp) (i : Byte) (a n : Word) (d : Option (List Byte)) : (s.latchCommand op i a n d).failInfo = s.failInfo := rfl
@[simp] theorem State.latchCommand_ocrPre (op : HostOp) (i : Byte) (a n : Word) (d : Option (List Byte)) : (s.latchCommand op i a n d).ocrPre = s.ocrPre := rfl
@[simp] theorem State.latchCommand_ocrPost (op : HostOp) (i : Byte) (a n : Word) (d : Option (List Byte)) : (s.latchCommand op i a n d).ocrPost = s.ocrPost := rfl
@[simp] theorem State.latchCommand_result (op : HostOp) (i : Byte) (a n : Word) (d : Option (List Byte)) : (s.latchCommand op i a n d).result = s.result := rfl
@[simp] theorem State.latchCommand_resultDelivered (op : HostOp) (i : Byte) (a n : Word) (d : Option (List Byte)) : (s.latchCommand op i a n d).resultDelivered = s.resultDelivered := rfl
@[simp] theorem State.latchCommand_reqOp (op : HostOp) (i : Byte) (a n : Word) (d : Option (List Byte)) : (s.latchCommand op i a n d).reqOp = op := rfl
@[simp] theorem State.latchCommand_reqId (op : HostOp) (i : Byte) (a n : Word) (d : Option (List Byte)) : (s.latchCommand op i a n d).reqId = i.truncate 6 := rfl
@[simp] theorem State.latchCommand_reqArg (op : HostOp) (i : Byte) (a n : Word) (d : Option (List Byte)) : (s.latchCommand op i a n d).reqArg = a := rfl
@[simp] theorem State.latchCommand_reqRlen (op : HostOp) (i : Byte) (a n : Word) (d : Option (List Byte)) : (s.latchCommand op i a n d).reqRlen = n := rfl
@[simp] theorem State.latchCommand_reqHasData (op : HostOp) (i : Byte) (a n : Word) (d : Option (List Byte)) : (s.latchCommand op i a n d).reqHasData = d.isSome := rfl
@[simp] theorem State.latchCommand_reqLockOp (op : HostOp) (i : Byte) (a n : Word) (d : Option (List Byte)) : (s.latchCommand op i a n d).reqLockOp = s.reqLockOp := rfl
@[simp] theorem State.latchCommand_reqOld (op : HostOp) (i : Byte) (a n : Word) (d : Option (List Byte)) : (s.latchCommand op i a n d).reqOld = s.reqOld := rfl
@[simp] theorem State.latchCommand_reqNew (op : HostOp) (i : Byte) (a n : Word) (d : Option (List Byte)) : (s.latchCommand op i a n d).reqNew = s.reqNew := rfl
@[simp] theorem State.latchCommand_dbuf (op : HostOp) (i : Byte) (a n : Word) (d : Option (List Byte)) : (s.latchCommand op i a n d).dbuf = d.getD s.dbuf := rfl
@[simp] theorem State.latchCommand_frameBuf (op : HostOp) (i : Byte) (a n : Word) (d : Option (List Byte)) : (s.latchCommand op i a n d).frameBuf = s.frameBuf := rfl
@[simp] theorem State.latchCommand_crc7 (op : HostOp) (i : Byte) (a n : Word) (d : Option (List Byte)) : (s.latchCommand op i a n d).crc7 = s.crc7 := rfl
@[simp] theorem State.latchCommand_crc16 (op : HostOp) (i : Byte) (a n : Word) (d : Option (List Byte)) : (s.latchCommand op i a n d).crc16 = s.crc16 := rfl
@[simp] theorem State.latchCommand_idleCnt (op : HostOp) (i : Byte) (a n : Word) (d : Option (List Byte)) : (s.latchCommand op i a n d).idleCnt = s.idleCnt := rfl
@[simp] theorem State.latchCommand_retryCnt (op : HostOp) (i : Byte) (a n : Word) (d : Option (List Byte)) : (s.latchCommand op i a n d).retryCnt = s.retryCnt := rfl
@[simp] theorem State.latchCommand_busyCnt (op : HostOp) (i : Byte) (a n : Word) (d : Option (List Byte)) : (s.latchCommand op i a n d).busyCnt = s.busyCnt := rfl
@[simp] theorem State.latchCommand_status (op : HostOp) (i : Byte) (a n : Word) (d : Option (List Byte)) : (s.latchCommand op i a n d).status = s.status := rfl
@[simp] theorem State.latchCommand_error (op : HostOp) (i : Byte) (a n : Word) (d : Option (List Byte)) : (s.latchCommand op i a n d).error = s.error := rfl
@[simp] theorem State.latchCommand_token (op : HostOp) (i : Byte) (a n : Word) (d : Option (List Byte)) : (s.latchCommand op i a n d).token = s.token := rfl
@[simp] theorem State.latchCommand_rbuf (op : HostOp) (i : Byte) (a n : Word) (d : Option (List Byte)) : (s.latchCommand op i a n d).rbuf = s.rbuf := rfl
@[simp] theorem State.latchCommand_rleft (op : HostOp) (i : Byte) (a n : Word) (d : Option (List Byte)) : (s.latchCommand op i a n d).rleft = s.rleft := rfl
@[simp] theorem State.latchCommand_dptr (op : HostOp) (i : Byte) (a n : Word) (d : Option (List Byte)) : (s.latchCommand op i a n d).dptr = s.dptr := rfl
@[simp] theorem State.latchCommand_seq (op : HostOp) (i : Byte) (a n : Word) (d : Option (List Byte)) : (s.latchCommand op i a n d).seq = s.seq := rfl
@[simp] theorem State.latchCommand_xRlen (op : HostOp) (i : Byte) (a n : Word) (d : Option (List Byte)) : (s.latchCommand op i a n d).xRlen = s.xRlen := rfl
@[simp] theorem State.latchCommand_xHasData (op : HostOp) (i : Byte) (a n : Word) (d : Option (List Byte)) : (s.latchCommand op i a n d).xHasData = s.xHasData := rfl
@[simp] theorem State.latchCommand_payload (op : HostOp) (i : Byte) (a n : Word) (d : Option (List Byte)) : (s.latchCommand op i a n d).payload = s.payload := rfl
@[simp] theorem State.latchCommand_params (op : HostOp) (i : Byte) (a n : Word) (d : Option (List Byte)) : (s.latchCommand op i a n d).params = s.params := rfl
@[simp] theorem State.latchCommand_hostPort (op : HostOp) (i : Byte) (a n : Word) (d : Option (List Byte)) : (s.latchCommand op i a n d).hostPort = s.hostPort := rfl
@[simp] theorem State.latchCommand_rx (op : HostOp) (i : Byte) (a n : Word) (d : Option (List Byte)) : (s.latchCommand op i a n d).rx = s.rx := rfl
@[simp] theorem State.latchCommand_resetPin (op : HostOp) (i : Byte) (a n : Word) (d : Option (List Byte)) : (s.latchCommand op i a n d).resetPin = s.resetPin := rfl
@[simp] theorem State.latchCommand_stalled (op : HostOp) (i : Byte) (a n : Word) (d : Option (List Byte)) : (s.latchCommand op i a n d).stalled = s.stalled := rfl
@[simp] theorem State.latchCommand_trace (op : HostOp) (i : Byte) (a n : Word) (d : Option (List Byte)) : (s.latchCommand op i a n d).trace = s.trace := rfl
@[simp] theorem State.latchCommand_fresh (op : HostOp) (i : Byte) (a n : Word) (d : Option (List Byte)) : (s.latchCommand op i a n d).fresh = s.fresh := rfl

/-! `latchLock` -/

@[simp] theorem State.latchLock_phase (op : LockOp) (o n : List Byte) : (s.latchLock op o n).phase = s.phase := rfl
@[simp] theorem State.latchLock_cs (op : LockOp) (o n : List Byte) : (s.latchLock op o n).cs = s.cs := rfl
@[simp] theorem State.latchLock_initState (op : LockOp) (o n : List Byte) : (s.latchLock op o n).initState = s.initState := rfl
@[simp] theorem State.latchLock_failKind (op : LockOp) (o n : List Byte) : (s.latchLock op o n).failKind = s.failKind := rfl
@[simp] theorem State.latchLock_failInfo (op : LockOp) (o n : List Byte) : (s.latchLock op o n).failInfo = s.failInfo := rfl
@[simp] theorem State.latchLock_ocrPre (op : LockOp) (o n : List Byte) : (s.latchLock op o n).ocrPre = s.ocrPre := rfl
@[simp] theorem State.latchLock_ocrPost (op : LockOp) (o n : List Byte) : (s.latchLock op o n).ocrPost = s.ocrPost := rfl
@[simp] theorem State.latchLock_result (op : LockOp) (o n : List Byte) : (s.latchLock op o n).result = s.result := rfl
@[simp] theorem State.latchLock_resultDelivered (op : LockOp) (o n : List Byte) : (s.latchLock op o n).resultDelivered = s.resultDelivered := rfl
@[simp] theorem State.latchLock_reqOp (op : LockOp) (o n : List Byte) : (s.latchLock op o n).reqOp = .lockUnlock := rfl
@[simp] theorem State.latchLock_reqId (op : LockOp) (o n : List Byte) : (s.latchLock op o n).reqId = s.reqId := rfl
@[simp] theorem State.latchLock_reqArg (op : LockOp) (o n : List Byte) : (s.latchLock op o n).reqArg = s.reqArg := rfl
@[simp] theorem State.latchLock_reqRlen (op : LockOp) (o n : List Byte) : (s.latchLock op o n).reqRlen = s.reqRlen := rfl
@[simp] theorem State.latchLock_reqHasData (op : LockOp) (o n : List Byte) : (s.latchLock op o n).reqHasData = s.reqHasData := rfl
@[simp] theorem State.latchLock_reqLockOp (op : LockOp) (o n : List Byte) : (s.latchLock op o n).reqLockOp = op := rfl
@[simp] theorem State.latchLock_reqOld (op : LockOp) (o n : List Byte) : (s.latchLock op o n).reqOld = o := rfl
@[simp] theorem State.latchLock_reqNew (op : LockOp) (o n : List Byte) : (s.latchLock op o n).reqNew = n := rfl
@[simp] theorem State.latchLock_dbuf (op : LockOp) (o n : List Byte) : (s.latchLock op o n).dbuf = passwordBlock s.params op o n := rfl
@[simp] theorem State.latchLock_frameBuf (op : LockOp) (o n : List Byte) : (s.latchLock op o n).frameBuf = s.frameBuf := rfl
@[simp] theorem State.latchLock_crc7 (op : LockOp) (o n : List Byte) : (s.latchLock op o n).crc7 = s.crc7 := rfl
@[simp] theorem State.latchLock_crc16 (op : LockOp) (o n : List Byte) : (s.latchLock op o n).crc16 = s.crc16 := rfl
@[simp] theorem State.latchLock_idleCnt (op : LockOp) (o n : List Byte) : (s.latchLock op o n).idleCnt = s.idleCnt := rfl
@[simp] theorem State.latchLock_retryCnt (op : LockOp) (o n : List Byte) : (s.latchLock op o n).retryCnt = s.retryCnt := rfl
@[simp] theorem State.latchLock_busyCnt (op : LockOp) (o n : List Byte) : (s.latchLock op o n).busyCnt = s.busyCnt := rfl
@[simp] theorem State.latchLock_status (op : LockOp) (o n : List Byte) : (s.latchLock op o n).status = s.status := rfl
@[simp] theorem State.latchLock_error (op : LockOp) (o n : List Byte) : (s.latchLock op o n).error = s.error := rfl
@[simp] theorem State.latchLock_token (op : LockOp) (o n : List Byte) : (s.latchLock op o n).token = s.token := rfl
@[simp] theorem State.latchLock_rbuf (op : LockOp) (o n : List Byte) : (s.latchLock op o n).rbuf = s.rbuf := rfl
@[simp] theorem State.latchLock_rleft (op : LockOp) (o n : List Byte) : (s.latchLock op o n).rleft = s.rleft := rfl
@[simp] theorem State.latchLock_dptr (op : LockOp) (o n : List Byte) : (s.latchLock op o n).dptr = s.dptr := rfl
@[simp] theorem State.latchLock_seq (op : LockOp) (o n : List Byte) : (s.latchLock op o n).seq = s.seq := rfl
@[simp] theorem State.latchLock_xRlen (op : LockOp) (o n : List Byte) : (s.latchLock op o n).xRlen = s.xRlen := rfl
@[simp] theorem State.latchLock_xHasData (op : LockOp) (o n : List Byte) : (s.latchLock op o n).xHasData = s.xHasData := rfl
@[simp] theorem State.latchLock_payload (op : LockOp) (o n : List Byte) : (s.latchLock op o n).payload = s.payload := rfl
@[simp] theorem State.latchLock_params (op : LockOp) (o n : List Byte) : (s.latchLock op o n).params = s.params := rfl
@[simp] theorem State.latchLock_hostPort (op : LockOp) (o n : List Byte) : (s.latchLock op o n).hostPort = s.hostPort := rfl
@[simp] theorem State.latchLock_rx (op : LockOp) (o n : List Byte) : (s.latchLock op o n).rx = s.rx := rfl
@[simp] theorem State.latchLock_resetPin (op : LockOp) (o n : List Byte) : (s.latchLock op o n).resetPin = s.resetPin := rfl
@[simp] theorem State.latchLock_stalled (op : LockOp) (o n : List Byte) : (s.latchLock op o n).stalled = s.stalled := rfl
@[simp] theorem State.latchLock_trace (op : LockOp) (o n : List Byte) : (s.latchLock op o n).trace = s.trace := rfl
@[simp] theorem State.latchLock_fresh (op : LockOp) (o n : List Byte) : (s.latchLock op o n).fresh = s.fresh := rfl

/-! `enterInit` -/

@[simp] theorem State.enterInit_phase : s.enterInit.phase = s.phase := rfl
@[simp] theorem State.enterInit_cs : s.enterInit.cs = s.cs := rfl
@[simp] theorem State.enterInit_initState : s.enterInit.initState = .reset := rfl
@[simp] theorem State.enterInit_failKind : s.enterInit.failKind = s.failKind := rfl
@[simp] theorem State.enterInit_failInfo : s.enterInit.failInfo = s.failInfo := rfl
@[simp] theorem State.enterInit_ocrPre : s.enterInit.ocrPre = none := rfl
@[simp] theorem State.enterInit_ocrPost : s.enterInit.ocrPost = none := rfl
@[simp] theorem State.enterInit_result : s.enterInit.result = s.result := rfl
@[simp] theorem State.enterInit_resultDelivered : s.enterInit.resultDelivered = s.resultDelivered := rfl
@[simp] theorem State.enterInit_reqOp : s.enterInit.reqOp = .init := rfl
@[simp] theorem State.enterInit_reqId : s.enterInit.reqId = s.reqId := rfl
@[simp] theorem State.enterInit_reqArg : s.enterInit.reqArg = s.reqArg := rfl
@[simp] theorem State.enterInit_reqRlen : s.enterInit.reqRlen = s.reqRlen := rfl
@[simp] theorem State.enterInit_reqHasData : s.enterInit.reqHasData = s.reqHasData := rfl
@[simp] theorem State.enterInit_reqLockOp : s.enterInit.reqLockOp = s.reqLockOp := rfl
@[simp] theorem State.enterInit_reqOld : s.enterInit.reqOld = s.reqOld := rfl
@[simp] theorem State.enterInit_reqNew : s.enterInit.reqNew = s.reqNew := rfl
@[simp] theorem State.enterInit_dbuf : s.enterInit.dbuf = s.dbuf := rfl
@[simp] theorem State.enterInit_frameBuf : s.enterInit.frameBuf = s.frameBuf := rfl
@[simp] theorem State.enterInit_crc7 : s.enterInit.crc7 = s.crc7 := rfl
@[simp] theorem State.enterInit_crc16 : s.enterInit.crc16 = s.crc16 := rfl
@[simp] theorem State.enterInit_idleCnt : s.enterInit.idleCnt = s.idleCnt := rfl
@[simp] theorem State.enterInit_retryCnt : s.enterInit.retryCnt = 0 := rfl
@[simp] theorem State.enterInit_busyCnt : s.enterInit.busyCnt = s.busyCnt := rfl
@[simp] theorem State.enterInit_status : s.enterInit.status = s.status := rfl
@[simp] theorem State.enterInit_error : s.enterInit.error = s.error := rfl
@[simp] theorem State.enterInit_token : s.enterInit.token = s.token := rfl
@[simp] theorem State.enterInit_rbuf : s.enterInit.rbuf = s.rbuf := rfl
@[simp] theorem State.enterInit_rleft : s.enterInit.rleft = s.rleft := rfl
@[simp] theorem State.enterInit_dptr : s.enterInit.dptr = s.dptr := rfl
@[simp] theorem State.enterInit_seq : s.enterInit.seq = s.seq := rfl
@[simp] theorem State.enterInit_xRlen : s.enterInit.xRlen = s.xRlen := rfl
@[simp] theorem State.enterInit_xHasData : s.enterInit.xHasData = s.xHasData := rfl
@[simp] theorem State.enterInit_payload : s.enterInit.payload = s.payload := rfl
@[simp] theorem State.enterInit_params : s.enterInit.params = s.params := rfl
@[simp] theorem State.enterInit_hostPort : s.enterInit.hostPort = s.hostPort := rfl
@[simp] theorem State.enterInit_rx : s.enterInit.rx = s.rx := rfl
@[simp] theorem State.enterInit_resetPin : s.enterInit.resetPin = s.resetPin := rfl
@[simp] theorem State.enterInit_stalled : s.enterInit.stalled = s.stalled := rfl
@[simp] theorem State.enterInit_trace : s.enterInit.trace = s.trace := rfl
@[simp] theorem State.enterInit_fresh : s.enterInit.fresh = s.fresh := rfl

/-! `recordInitFailure` -/

@[simp] theorem State.recordInitFailure_phase (k : Kind) (info : Byte) :
    (s.recordInitFailure k info).phase = s.phase := by unfold State.recordInitFailure; split <;> rfl
@[simp] theorem State.recordInitFailure_cs (k : Kind) (info : Byte) :
    (s.recordInitFailure k info).cs = s.cs := by unfold State.recordInitFailure; split <;> rfl
@[simp] theorem State.recordInitFailure_initState (k : Kind) (info : Byte) :
    (s.recordInitFailure k info).initState = if s.reqOp = .init then .failed else s.initState := by
  unfold State.recordInitFailure; split <;> rfl
@[simp] theorem State.recordInitFailure_failKind (k : Kind) (info : Byte) :
    (s.recordInitFailure k info).failKind = if s.reqOp = .init then k else s.failKind := by
  unfold State.recordInitFailure; split <;> rfl
@[simp] theorem State.recordInitFailure_failInfo (k : Kind) (info : Byte) :
    (s.recordInitFailure k info).failInfo = if s.reqOp = .init then info else s.failInfo := by
  unfold State.recordInitFailure; split <;> rfl
@[simp] theorem State.recordInitFailure_ocrPre (k : Kind) (info : Byte) :
    (s.recordInitFailure k info).ocrPre = s.ocrPre := by unfold State.recordInitFailure; split <;> rfl
@[simp] theorem State.recordInitFailure_ocrPost (k : Kind) (info : Byte) :
    (s.recordInitFailure k info).ocrPost = s.ocrPost := by unfold State.recordInitFailure; split <;> rfl
@[simp] theorem State.recordInitFailure_result (k : Kind) (info : Byte) :
    (s.recordInitFailure k info).result = s.result := by unfold State.recordInitFailure; split <;> rfl
@[simp] theorem State.recordInitFailure_resultDelivered (k : Kind) (info : Byte) :
    (s.recordInitFailure k info).resultDelivered = s.resultDelivered := by unfold State.recordInitFailure; split <;> rfl
@[simp] theorem State.recordInitFailure_reqOp (k : Kind) (info : Byte) :
    (s.recordInitFailure k info).reqOp = s.reqOp := by unfold State.recordInitFailure; split <;> rfl
@[simp] theorem State.recordInitFailure_reqId (k : Kind) (info : Byte) :
    (s.recordInitFailure k info).reqId = s.reqId := by unfold State.recordInitFailure; split <;> rfl
@[simp] theorem State.recordInitFailure_reqArg (k : Kind) (info : Byte) :
    (s.recordInitFailure k info).reqArg = s.reqArg := by unfold State.recordInitFailure; split <;> rfl
@[simp] theorem State.recordInitFailure_reqRlen (k : Kind) (info : Byte) :
    (s.recordInitFailure k info).reqRlen = s.reqRlen := by unfold State.recordInitFailure; split <;> rfl
@[simp] theorem State.recordInitFailure_reqHasData (k : Kind) (info : Byte) :
    (s.recordInitFailure k info).reqHasData = s.reqHasData := by unfold State.recordInitFailure; split <;> rfl
@[simp] theorem State.recordInitFailure_reqLockOp (k : Kind) (info : Byte) :
    (s.recordInitFailure k info).reqLockOp = s.reqLockOp := by unfold State.recordInitFailure; split <;> rfl
@[simp] theorem State.recordInitFailure_reqOld (k : Kind) (info : Byte) :
    (s.recordInitFailure k info).reqOld = s.reqOld := by unfold State.recordInitFailure; split <;> rfl
@[simp] theorem State.recordInitFailure_reqNew (k : Kind) (info : Byte) :
    (s.recordInitFailure k info).reqNew = s.reqNew := by unfold State.recordInitFailure; split <;> rfl
@[simp] theorem State.recordInitFailure_dbuf (k : Kind) (info : Byte) :
    (s.recordInitFailure k info).dbuf = s.dbuf := by unfold State.recordInitFailure; split <;> rfl
@[simp] theorem State.recordInitFailure_frameBuf (k : Kind) (info : Byte) :
    (s.recordInitFailure k info).frameBuf = s.frameBuf := by unfold State.recordInitFailure; split <;> rfl
@[simp] theorem State.recordInitFailure_crc7 (k : Kind) (info : Byte) :
    (s.recordInitFailure k info).crc7 = s.crc7 := by unfold State.recordInitFailure; split <;> rfl
@[simp] theorem State.recordInitFailure_crc16 (k : Kind) (info : Byte) :
    (s.recordInitFailure k info).crc16 = s.crc16 := by unfold State.recordInitFailure; split <;> rfl
@[simp] theorem State.recordInitFailure_idleCnt (k : Kind) (info : Byte) :
    (s.recordInitFailure k info).idleCnt = s.idleCnt := by unfold State.recordInitFailure; split <;> rfl
@[simp] theorem State.recordInitFailure_retryCnt (k : Kind) (info : Byte) :
    (s.recordInitFailure k info).retryCnt = s.retryCnt := by unfold State.recordInitFailure; split <;> rfl
@[simp] theorem State.recordInitFailure_busyCnt (k : Kind) (info : Byte) :
    (s.recordInitFailure k info).busyCnt = s.busyCnt := by unfold State.recordInitFailure; split <;> rfl
@[simp] theorem State.recordInitFailure_status (k : Kind) (info : Byte) :
    (s.recordInitFailure k info).status = s.status := by unfold State.recordInitFailure; split <;> rfl
@[simp] theorem State.recordInitFailure_error (k : Kind) (info : Byte) :
    (s.recordInitFailure k info).error = s.error := by unfold State.recordInitFailure; split <;> rfl
@[simp] theorem State.recordInitFailure_token (k : Kind) (info : Byte) :
    (s.recordInitFailure k info).token = s.token := by unfold State.recordInitFailure; split <;> rfl
@[simp] theorem State.recordInitFailure_rbuf (k : Kind) (info : Byte) :
    (s.recordInitFailure k info).rbuf = s.rbuf := by unfold State.recordInitFailure; split <;> rfl
@[simp] theorem State.recordInitFailure_rleft (k : Kind) (info : Byte) :
    (s.recordInitFailure k info).rleft = s.rleft := by unfold State.recordInitFailure; split <;> rfl
@[simp] theorem State.recordInitFailure_dptr (k : Kind) (info : Byte) :
    (s.recordInitFailure k info).dptr = s.dptr := by unfold State.recordInitFailure; split <;> rfl
@[simp] theorem State.recordInitFailure_seq (k : Kind) (info : Byte) :
    (s.recordInitFailure k info).seq = s.seq := by unfold State.recordInitFailure; split <;> rfl
@[simp] theorem State.recordInitFailure_xRlen (k : Kind) (info : Byte) :
    (s.recordInitFailure k info).xRlen = s.xRlen := by unfold State.recordInitFailure; split <;> rfl
@[simp] theorem State.recordInitFailure_xHasData (k : Kind) (info : Byte) :
    (s.recordInitFailure k info).xHasData = s.xHasData := by unfold State.recordInitFailure; split <;> rfl
@[simp] theorem State.recordInitFailure_payload (k : Kind) (info : Byte) :
    (s.recordInitFailure k info).payload = s.payload := by unfold State.recordInitFailure; split <;> rfl
@[simp] theorem State.recordInitFailure_params (k : Kind) (info : Byte) :
    (s.recordInitFailure k info).params = s.params := by unfold State.recordInitFailure; split <;> rfl
@[simp] theorem State.recordInitFailure_hostPort (k : Kind) (info : Byte) :
    (s.recordInitFailure k info).hostPort = s.hostPort := by unfold State.recordInitFailure; split <;> rfl
@[simp] theorem State.recordInitFailure_rx (k : Kind) (info : Byte) :
    (s.recordInitFailure k info).rx = s.rx := by unfold State.recordInitFailure; split <;> rfl
@[simp] theorem State.recordInitFailure_resetPin (k : Kind) (info : Byte) :
    (s.recordInitFailure k info).resetPin = s.resetPin := by unfold State.recordInitFailure; split <;> rfl
@[simp] theorem State.recordInitFailure_stalled (k : Kind) (info : Byte) :
    (s.recordInitFailure k info).stalled = s.stalled := by unfold State.recordInitFailure; split <;> rfl
@[simp] theorem State.recordInitFailure_trace (k : Kind) (info : Byte) :
    (s.recordInitFailure k info).trace = s.trace := by unfold State.recordInitFailure; split <;> rfl
@[simp] theorem State.recordInitFailure_fresh (k : Kind) (info : Byte) :
    (s.recordInitFailure k info).fresh = s.fresh := by unfold State.recordInitFailure; split <;> rfl

/-! The endings of an operation are made of the updates above. -/

@[simp] theorem State.deliverOk_eq (st : Byte) (p : List Byte) :
    s.deliverOk st p = (s.deliver ⟨.ok, st, Config.freeByte s.fresh, p⟩).drawn := rfl
@[simp] theorem State.deliverInitOk_eq :
    s.deliverInitOk =
      (s.deliver ⟨.ok, Config.freeByte s.fresh, Config.freeByte (s.fresh + 1), []⟩).drawn.drawn := rfl
@[simp] theorem State.refuse_eq :
    s.refuse = (s.deliver ⟨.refused, Config.freeByte s.fresh, Config.freeByte (s.fresh + 1), []⟩).drawn.drawn := rfl
@[simp] theorem State.endWithError_eq (k : Kind) (info : Byte) :
    s.endWithError k info = ((s.recordInitFailure k info).deliver
      ⟨k, Config.freeByte s.fresh, info, []⟩).drawn := rfl

end Sys2Proof.Machine
end

