-- ==== Sys2Proof/Laws/Frame.lean ====
section
/-! SUPPORT. What the framer and the frame decoder do to each other's fields (R71 to R74, R110, R111), and the row and
effect of the frame of each exchange (R81). -/

namespace Sys2Proof

open Machine

theorem commandByte_fields :
    ∀ id : BitVec 6, (commandByte id).extractLsb' 0 6 = id ∧ (commandByte id).extractLsb' 6 2 = 0b01 := by
  decide

theorem crcField_fields : ∀ k : BitVec 7, (crcField k).extractLsb' 1 7 = k ∧ (crcField k).getLsbD 0 = true := by
  decide

/-- The four argument bytes, most significant first, are the argument (R52). -/
theorem word_of_bytes (a : Word) :
    (a.extractLsb' 24 8 ++ a.extractLsb' 16 8 ++ a.extractLsb' 8 8 ++ a.extractLsb' 0 8 : Word) = a := by
  apply BitVec.eq_of_getLsbD_eq
  intro i hi
  simp only [BitVec.getLsbD_append, BitVec.getLsbD_extractLsb']
  have : i < 32 := hi
  by_cases h1 : i < 8
  · simp [h1]
  by_cases h2 : i < 16
  · simp [h1, show i - 8 < 8 by omega, show 8 + (i - 8) = i by omega]
  by_cases h3 : i < 24
  · simp [h1, show ¬ i - 8 < 8 by omega, show i - 8 - 8 < 8 by omega, show 16 + (i - 8 - 8) = i by omega]
  · simp [h1, show ¬ i - 8 < 8 by omega, show ¬ i - 8 - 8 < 8 by omega, show i - 8 - 8 - 8 < 8 by omega,
      show 24 + (i - 8 - 8 - 8) = i by omega]

section fields

variable (id : BitVec 6) (arg : Word) (k : BitVec 7)

@[simp] theorem assembleFrame_isCommand : (assembleFrame id arg k).isCommand = true := by
  simp [Frame.isCommand, assembleFrame, (commandByte_fields id).2, (crcField_fields k).2]

@[simp] theorem assembleFrame_commandId : (assembleFrame id arg k).commandId = id := by
  simp [Frame.commandId, assembleFrame, (commandByte_fields id).1]

@[simp] theorem assembleFrame_crc : (assembleFrame id arg k).crc = k := by
  simp [Frame.crc, assembleFrame, (crcField_fields k).1]

@[simp] theorem assembleFrame_argument : (assembleFrame id arg k).argument = arg := by
  simp [Frame.argument, assembleFrame, word_of_bytes arg]

@[simp] theorem assembleFrame_generic : (assembleFrame id arg k).generic = .cmd id arg k := by
  simp [Frame.generic]

end fields

/-- CMD8's argument bytes: the fixed low byte 0x1A, and the OPEN upper 24 bits (R164). -/
theorem cmd8_bytes (hi : BitVec 24) (k : BitVec 7) :
    (assembleFrame 8 (hi ++ (0x1A : Byte)) k).b4 = 0x1A ∧
      ((assembleFrame 8 (hi ++ (0x1A : Byte)) k).b1 ++ (assembleFrame 8 (hi ++ (0x1A : Byte)) k).b2 ++
        (assembleFrame 8 (hi ++ (0x1A : Byte)) k).b3 : BitVec 24) = hi := by
  constructor
  · apply BitVec.eq_of_getLsbD_eq
    intro i h
    simp only [assembleFrame, BitVec.getLsbD_append, BitVec.getLsbD_extractLsb']
    simp [h]
  · apply BitVec.eq_of_getLsbD_eq
    intro i h
    have : i < 24 := h
    simp only [assembleFrame, BitVec.getLsbD_append, BitVec.getLsbD_extractLsb']
    by_cases h1 : i < 8
    · simp [h1]
    by_cases h2 : i < 16
    · simp [h1, show i - 8 < 8 by omega, show ¬ 16 + (i - 8) < 8 by omega, show 16 + (i - 8) - 8 = i by omega]
    · simp [h1, show ¬ i - 8 < 8 by omega, show i - 8 - 8 < 8 by omega, show ¬ 24 + (i - 8 - 8) < 8 by omega,
        show 24 + (i - 8 - 8) - 8 = i by omega]

theorem own_cmd8 (hi : BitVec 24) (k : BitVec 7) :
    (assembleFrame 8 (hi ++ (0x1A : Byte)) k).own = .cmd8 hi k := by
  unfold Frame.own
  rw [assembleFrame_commandId]
  exact (if_pos (cmd8_bytes hi k).1).trans (by rw [(cmd8_bytes hi k).2, assembleFrame_crc])

/-- The five frames of R81 with no open field are FRAME's. -/
theorem fixed_frames :
    buildFrame 0 0 = ⟨0x40, 0x00, 0x00, 0x00, 0x00, 0x95⟩ ∧ buildFrame 13 0 = ⟨0x4D, 0x00, 0x00, 0x00, 0x00, 0x0D⟩ ∧
      buildFrame 42 0 = ⟨0x6A, 0x00, 0x00, 0x00, 0x00, 0x51⟩ ∧ buildFrame 55 0 = ⟨0x77, 0x00, 0x00, 0x00, 0x00, 0x65⟩ ∧
      buildFrame 58 0 = ⟨0x7A, 0x00, 0x00, 0x00, 0x00, 0xFD⟩ :=
  by decide +kernel

/-- The row an exchange's frame decodes to (R81), with its CRC field. -/
def Machine.issuedRow (q : Seq) (s : State) : Instr :=
  match q with
  | .cmd => .cmd s.reqId s.reqArg (frameCrc s.reqId s.reqArg)
  | .acmdPrefix => .cmd55
  | .acmdTarget => .cmd s.reqId s.reqArg (frameCrc s.reqId s.reqArg)
  | .initCmd0 => .cmd0
  | .initCmd8 => .cmd8 s.params.cmd8ArgHi (frameCrc 8 s.params.cmd8Arg)
  | .initCmd58Pre => .cmd58
  | .initCmd55 => .cmd55
  | .initAcmd41 => .acmd41 s.params.acmd41Arg (frameCrc 41 s.params.acmd41Arg)
  | .initCmd58Post => .cmd58
  | .lockCmd16 => .cmd16 (blockLength s.dbuf) (frameCrc 16 (blockLength s.dbuf))
  | .lockCmd42 => .cmd42
  | .lockCmd55 => .cmd55
  | .lockAcmd13 => .acmd13

/-- The frame FRAME builds for an exchange decodes to that exchange's row. -/
theorem Machine.decode_issued (q : Seq) (s : State) :
    decodeFrame q.own (buildFrame (exchangeId q s.reqId) (exchangeArg q s.reqArg s.params s.dbuf)) = .ok (issuedRow q s) := by
  obtain ⟨f0, f13, f42, f55, f58⟩ := fixed_frames
  cases q <;> simp only [exchangeId, exchangeArg, Seq.own, issuedRow, f0, f13, f42, f55, f58]
  case initCmd8 =>
    rw [decodeFrame, buildFrame, Config.Params.cmd8Arg, if_pos (assembleFrame_isCommand _ _ _), if_pos rfl, own_cmd8]
  all_goals first | decide | simp [decodeFrame, buildFrame, Frame.own]

end Sys2Proof
end

