-- ==== Sys2Proof/Laws/Step.lean ====
section
/-! SUPPORT. What a step can do, said once: `step_cases` for the two inputs that come first, `Active` for one step of
the engine proper, with `active_of_step` to take a step apart. -/

namespace Sys2Proof.Machine

/-- One step of the engine proper, case by case: the phase, what selects the step, and the state it leads to. -/
inductive Active (s : State) : State → Prop where
  | idle (hp : s.phase = .idle) (h : s.hostPort = []) : Active s s
  | request (r : Request) (rest : List Request) (t : State) (hp : s.phase = .idle) (h : s.hostPort = r :: rest)
      (he : exec (decodeRequest r) s = .next t) : Active s t
  | issue (i : Instr) (t : State) (hp : s.phase = .xAssert) (h : decodeFrame s.seq.own s.frameBuf = .ok i)
      (he : exec i s = .next t) : Active s t
  | transmit (i : Fin 6) (hp : s.phase = .xTx i) : Active s (txStep i s)
  | pollIdle (hp : s.phase = .xPoll) (h : s.rxByte = Config.idleByte) :
      Active s (s.xferAs Config.fill Config.idleByte).countIdle
  | pollStatus (hp : s.phase = .xPoll) (h : s.rxByte ≠ Config.idleByte) : Active s (s.statusReceived s.rxByte)
  | collect (hp : s.phase = .xCollect) : Active s (collectStep s)
  | start (hp : s.phase = .dStart) :
      Active s ((s.xfer Config.startToken).setDptr 0).afterPayloadByte
  | opByte (op : LockOp) (b : Byte) (rest : List Byte) (hp : s.phase = .dData) (hq : s.seq = .lockCmd42)
      (hd : s.dptr = 0) (hb : s.dbuf = b :: rest) (h : op.byte s.params.opBytes = b) : Active s (s.sendOpByte op)
  | data (hp : s.phase = .dData) : Active s (dataStep s)
  | crc (k : Fin 2) (hp : s.phase = .dCrc k) : Active s (crcStep k s)
  | tokenIdle (hp : s.phase = .dToken) (h : s.tokenIdle = true) :
      Active s (s.xferAs Config.fill Config.idleByte).countIdle
  | tokenByte (hp : s.phase = .dToken) (h : s.tokenIdle = false)
      (hr : ∀ t rest, s.rbuf = t :: rest → s.rleft ≤ 1 → tokenAccepted t = false) : Active s (tokenStep s)
  | tokenAccept (t : Byte) (rest : List Byte) (hp : s.phase = .dToken) (hb : s.rbuf = t :: rest)
      (hl : s.rleft ≤ 1) (h : tokenAccepted t = true) : Active s (s.tokenAccept (t.extractLsb' 5 3))
  | busy (hp : s.phase = .dBusy) (h : s.rxByte = Config.busyByte) :
      Active s (s.xferAs Config.fill Config.busyByte).countBusy
  | busyEnd (hp : s.phase = .dBusy) (h : s.rxByte ≠ Config.busyByte) : Active s (busyEndStep s)
  | release (hp : s.phase = .xRelease) : Active s (releaseStep s)
  | releaseErr (k : Kind) (info : Byte) (hp : s.phase = .xReleaseErr k info) : Active s (releaseErrStep k info s)

/-- A step is a reset, a wait for the transport, or a step of the engine proper. -/
theorem step_cases {s t : State} (h : step s = .next t) :
    (s.resetPin = true ∧ t = s.hardReset) ∨ (s.resetPin = false ∧ s.waiting = true ∧ t = s) ∨
      (s.resetPin = false ∧ s.waiting = false ∧
        ((∃ i, fetch s = .instr i ∧ exec i s = .next t) ∨ (fetch s = .sequencer ∧ t = sequence s))) := by
  unfold step at h
  cases hr : s.resetPin <;> simp only [hr, if_true, Bool.false_eq_true, if_false] at h
  · cases hw : s.waiting <;> simp only [hw, if_true, Bool.false_eq_true, if_false] at h
    · refine .inr (.inr ⟨rfl, rfl, ?_⟩)
      split at h
      · exact .inl ⟨_, ‹_›, h⟩
      · exact .inr ⟨‹_›, (Host.Outcome.next.inj h).symm⟩
      · cases h
    · exact .inr (.inl ⟨rfl, rfl, (Host.Outcome.next.inj h).symm⟩)
  · exact .inl ⟨rfl, (Host.Outcome.next.inj h).symm⟩

/-- An operation byte stands for an operation whose byte it is (R88). -/
theorem byte_of_ofByte {tbl : Config.OpBytes} {b : Byte} {op : LockOp} (h : LockOp.ofByte tbl b = some op) :
    op.byte tbl = b := by
  unfold LockOp.ofByte at h
  split_ifs at h <;> cases h <;> simp_all [LockOp.byte]

theorem exec_opInstr (op : LockOp) (s : State) : exec op.instr s = .next (s.sendOpByte op) := by
  cases op <;> rfl

/-- A step of the engine proper is one of the cases of `Active`. -/
theorem active_of_fetch {s t : State}
    (h : (∃ i, fetch s = .instr i ∧ exec i s = .next t) ∨ (fetch s = .sequencer ∧ t = sequence s)) : Active s t := by
  cases hp : s.phase with
  | idle =>
    simp only [fetch, hp] at h
    cases hq : s.hostPort with
    | nil =>
      simp [hq, sequence, hp] at h
      subst h
      exact .idle hp hq
    | cons r rest =>
      simp [hq, fetchedOr, decode] at h
      exact .request r rest t hp hq h
  | xAssert =>
    simp only [fetch, hp, decode] at h
    cases hd : decodeFrame s.seq.own s.frameBuf with
    | error e => simp [hd] at h
    | ok i =>
      simp [hd] at h
      exact .issue i t hp hd h
  | xTx i =>
    simp [fetch, hp, sequence] at h
    exact h ▸ .transmit i hp
  | xPoll =>
    by_cases hb : s.rxByte = Config.idleByte
    · simp [fetch, hp, decode, decodeResponse, fetchedOr, hb, exec, execIdleByte] at h
      exact h ▸ .pollIdle hp hb
    · simp [fetch, hp, decode, decodeResponse, fetchedOr, hb, exec, execStatus] at h
      exact h ▸ .pollStatus hp hb
  | xCollect =>
    simp [fetch, hp, sequence] at h
    exact h ▸ .collect hp
  | dStart =>
    simp [fetch, hp, decode, fetchedOr, exec, execStartToken] at h
    exact h ▸ .start hp
  | dData =>
    by_cases hc : s.seq = .lockCmd42 ∧ s.dptr = 0
    · simp only [fetch, hp, hc, and_self, if_true] at h
      cases hb : s.dbuf with
      | nil =>
        simp [hb, sequence, hp] at h
        exact h ▸ .data hp
      | cons b rest =>
        simp only [hb, decode, decodeOpByte] at h
        cases ho : LockOp.ofByte s.params.opBytes b with
        | none =>
          simp [ho, fetchedOr, sequence, hp] at h
          exact h ▸ .data hp
        | some op =>
          simp [ho, fetchedOr, exec_opInstr] at h
          exact h ▸ .opByte op b rest hp hc.1 hc.2 hb (byte_of_ofByte ho)
    · simp only [fetch, hp, hc, if_false] at h
      simp [sequence, hp] at h
      exact h ▸ .data hp
  | dCrc k =>
    simp [fetch, hp, sequence] at h
    exact h ▸ .crc k hp
  | dToken =>
    cases hi : s.tokenIdle with
    | true =>
      simp [fetch, hp, hi, exec, execIdleByte] at h
      exact h ▸ .tokenIdle hp hi
    | false =>
      simp only [fetch, hp, hi, Bool.false_eq_true, if_false] at h
      cases hb : s.rbuf with
      | nil =>
        simp [hb, sequence, hp] at h
        exact h ▸ .tokenByte hp hi (by simp [hb])
      | cons b rest =>
        simp only [hb] at h
        by_cases hl : s.rleft ≤ 1
        · simp only [hl, if_true, decode, decodeToken] at h
          cases ha : tokenAccepted b with
          | true =>
            simp [ha, fetchedOr, exec, execDrtAccept] at h
            exact h ▸ .tokenAccept b rest hp hb hl ha
          | false =>
            simp [ha, fetchedOr, sequence, hp] at h
            exact h ▸ .tokenByte hp hi (by intro t rest' e _; simp_all)
        · simp [hl, sequence, hp] at h
          exact h ▸ .tokenByte hp hi (by intro t rest' _ e; exact absurd e hl)
  | dBusy =>
    by_cases hb : s.rxByte = Config.busyByte
    · simp [fetch, hp, decode, decodeBusy, fetchedOr, hb, exec, execBusyByte] at h
      exact h ▸ .busy hp hb
    · simp [fetch, hp, decode, decodeBusy, fetchedOr, hb, sequence] at h
      exact h ▸ .busyEnd hp hb
  | xRelease =>
    simp [fetch, hp, sequence] at h
    exact h ▸ .release hp
  | xReleaseErr k info =>
    simp [fetch, hp, sequence] at h
    exact h ▸ .releaseErr k info hp

/-- A step with neither input raised is one of the cases of `Active`. -/
theorem active_of_step {s t : State} (hr : s.resetPin = false) (hw : s.waiting = false) (h : step s = .next t) :
    Active s t := by
  rcases step_cases h with ⟨h1, _⟩ | ⟨_, h1, _⟩ | ⟨_, _, h1⟩
  · simp [hr] at h1
  · simp [hw] at h1
  · exact active_of_fetch h1

/-- The row of an exchange begins it with the exchange's own operands (R76, R81). -/
theorem exec_issuedRow (q : Seq) (s : State) :
    exec (issuedRow q s) s =
      .next (s.beginExchange (buildFrame (exchangeId q s.reqId) (exchangeArg q s.reqArg s.params s.dbuf)) (exchangeRlen q s.reqRlen)
        (exchangeHasData q s.reqHasData)) := by
  cases q <;> rfl

end Sys2Proof.Machine
end

