-- ==== Sys2Proof/Laws/Ops.lean ====
section
/-! SUPPORT. What each shared operation can do, said once: the transfer, taking an error, the counters, the payload
steps, the capacities, the trace; and the step of each phase when nothing keeps the engine from it. -/

namespace Sys2Proof.Machine

/-! The transfer (R10, R55, R60). -/

theorem xfer_listed {s : State} {r : Byte} {rest : List Byte} (t : Byte) (h : s.rx = r :: rest) :
    s.xfer t = { s with rx := rest, trace := s.trace ++ [.xfer t r] } := by
  simp [State.xfer, State.xferAs, State.consumeRx, State.rxByte, h]

theorem xferAs_listed {s : State} {r : Byte} {rest : List Byte} (t : Byte) (h : s.rx = r :: rest) :
    s.xferAs t r = { s with rx := rest, trace := s.trace ++ [.xfer t r] } := by
  simp [State.xferAs, State.consumeRx, h]

theorem rxByte_listed {s : State} {r : Byte} {rest : List Byte} (h : s.rx = r :: rest) : s.rxByte = r := by
  simp [State.rxByte, h]

/-! Taking an error (R208). -/

theorem raise_selected {s : State} (k : Kind) (info : Byte) (h : s.cs = true) :
    s.raise k info = s.goto (.xReleaseErr k info) := if_pos h

theorem raise_released {s : State} (k : Kind) (info : Byte) (h : s.cs = false) :
    s.raise k info = s.endWithError k info := if_neg (by simp [h])

theorem recordInitFailure_init {s : State} (k : Kind) (info : Byte) (h : s.reqOp = .init) :
    s.recordInitFailure k info = { s with initState := .failed, failKind := k, failInfo := info } := if_pos h

theorem recordInitFailure_other {s : State} (k : Kind) (info : Byte) (h : s.reqOp ≠ .init) :
    s.recordInitFailure k info = s := if_neg h

/-! The counters (R120, R126). -/

theorem countIdle_below {s : State} (h : s.idleCnt + 1 ≠ Config.maxIdlePolls) : s.countIdle = s.bumpIdle := if_neg h

theorem countIdle_last {s : State} (h : s.idleCnt + 1 = Config.maxIdlePolls) (hc : s.cs = true) :
    s.countIdle = s.bumpIdle.goto (.xReleaseErr .responseTimeout 0xFF) :=
  (if_pos h).trans (raise_selected _ _ hc)

theorem countBusy_unbounded {s : State} (h : s.params.busyBound = none) : s.countBusy = s := by
  simp [State.countBusy, h]

theorem countBusy_below {s : State} {n : Nat} (hb : s.params.busyBound = some n) (h : s.busyCnt + 1 ≠ n) :
    s.countBusy = s.bumpBusy := by
  simp [State.countBusy, hb, h]

theorem countBusy_last {s : State} {n : Nat} (hb : s.params.busyBound = some n) (h : s.busyCnt + 1 = n)
    (hc : s.cs = true) : s.countBusy = s.bumpBusy.goto (.xReleaseErr .cardUnresponsive 0x00) := by
  simp [State.countBusy, hb, h, raise_selected, hc]

/-- A property of taking an error: from chip-select asserted and from chip-select released. -/
theorem raise_elim (P : State → Prop) {s : State} {k : Kind} {info : Byte}
    (h1 : s.cs = true → P (s.goto (.xReleaseErr k info))) (h2 : s.cs = false → P (s.endWithError k info)) :
    P (s.raise k info) := by
  unfold State.raise
  split <;> simp_all

/-! The error test (R33, R140) and request validation (R136, R137, R182), in the rules' words. -/

theorem errorOf_eq : ∀ b : Byte, errorOf b = decide (b &&& 0xFE ≠ 0) := by decide

theorem tokenAccepted_iff : ∀ t : Byte, tokenAccepted t = true ↔ t &&& 0x1F = 0x05 := by decide

theorem commandValid_iff {p : Config.Params} {id : Byte} {rlen : Word} {data : Option (List Byte)} :
    commandValid p id rlen data = true ↔
      id.toNat ≤ 63 ∧ (∀ c, p.rbufCap = some c → rlen.toNat + 1 ≤ c) ∧
        (∀ d, data = some d → d ≠ [] ∧ ∀ c, p.dbufCap = some c → d.length ≤ c) := by
  have e : ∀ (α : Type) (o : Option α) (q : α → Bool), o.all q = true ↔ ∀ c, o = some c → q c = true := by
    intro α o q
    cases o <;> simp
  simp [commandValid, commandIdValid, dataValid, withinCap, and_assoc, e]

theorem passwordsValid_iff {p : Config.Params} {old new : List Byte} :
    passwordsValid p old new = true ↔
      old.length + new.length ≤ 255 ∧ (∀ c, p.dbufCap = some c → 2 + old.length + new.length ≤ c) := by
  have e : ∀ (α : Type) (o : Option α) (q : α → Bool), o.all q = true ↔ ∀ c, o = some c → q c = true := by
    intro α o q
    cases o <;> simp
  simp [passwordsValid, withinCap, e]

/-! The payload steps (R146, R147, R181). -/

theorem afterPayloadByte_more {s : State} (h : s.dptr < s.dbuf.length) : s.afterPayloadByte = s.goto .dData := if_pos h

theorem afterPayloadByte_last {s : State} (h : ¬ s.dptr < s.dbuf.length) : s.afterPayloadByte = s.beginTrailer :=
  if_neg h

theorem setBlockByte_head {s : State} {b : Byte} {rest : List Byte} (h : s.dbuf = b :: rest) :
    s.setBlockByte b = s := by
  cases s; simp_all [State.setBlockByte]

/-- An operation byte that is DBUF's own first byte is sent as any payload byte 0 is. -/
theorem sendOpByte_eq {s : State} {op : LockOp} {b : Byte} {rest : List Byte} (h : s.dbuf = b :: rest)
    (ho : op.byte s.params.opBytes = b) : s.sendOpByte op = ((s.xfer b).setDptr 1).afterPayloadByte := by
  rw [State.sendOpByte, ho, setBlockByte_head h]

theorem dataStep_eq {s : State} {b : Byte} (h : s.dbuf[s.dptr]? = some b) :
    dataStep s = ((s.xfer b).setDptr (s.dptr + 1)).afterPayloadByte := by
  simp [dataStep, h]

theorem accepted_token : ∀ t : Byte, tokenAccepted t = true → (t.extractLsb' 5 3 ++ (0b00101 : BitVec 5) : BitVec 8) = t := by
  decide

/-! The capacities (R27). -/

theorem withinCap_mono {m n : Nat} {c : Option Nat} (h : withinCap n c = true) (hm : m ≤ n) : withinCap m c = true := by
  cases c <;> simp [withinCap] at *
  omega

theorem withinCap_zero {c : Option Nat} : withinCap 0 c = true := by
  cases c <;> simp [withinCap]

/-- RBUF_CAP >= 5 (R27). -/
theorem rbufCap_five {p : Config.Params} (h : p.wf = true) {n : Nat} (hn : n ≤ 5) : withinCap n p.rbufCap = true := by
  simp only [Config.Params.wf, Bool.and_eq_true] at h
  cases hc : p.rbufCap <;> simp_all [withinCap]
  omega

/-- A response of the exchange in progress fits RBUF (R27, R136). -/
theorem State.Inv.reply_fits {s : State} (hI : s.Inv) (h : s.phase ≠ .idle) :
    withinCap ((exchangeRlen s.seq s.reqRlen).toNat + 1) s.params.rbufCap = true := by
  have ho := hI.op h
  have hc := hI.replyCap h
  cases hq : s.seq <;> simp [hq, Seq.op] at ho <;> simp [exchangeRlen] <;>
    first
    | (apply hc; simp [← ho])
    | (apply rbufCap_five hI.params; decide)

/-- A data write has a non-empty payload (R137, R180). -/
theorem State.Inv.dbuf_ne {s : State} (hI : s.Inv) (h : s.phase.writing = true) : s.dbuf ≠ [] := by
  have hw := (hI.writing h).1
  have hcs : s.cs = true := by
    rw [hI.cs]
    revert h
    cases s.phase <;> simp [Phase.writing, Phase.selected]
  have hp : s.phase ≠ .idle := by
    intro e
    simp [e, Phase.writing] at h
  have ho := hI.op hp
  rw [(hI.operands hcs).2] at hw
  cases hq : s.seq <;> simp [hq, exchangeHasData, Seq.op] at hw ho
  · exact hI.commandData hp (.inl ho.symm) hw
  · exact hI.commandData hp (.inr ho.symm) hw
  · rw [(hI.block hp ho.symm).1]
    simp [passwordBlock]

/-! The trace (R142). -/

theorem replay_append (l : List Event) (b : Bool) (e : Event) :
    replayCS (l ++ [e]) b = (replayCS l b).bind (fun c => replayCS [e] c) := by
  induction l generalizing b with
  | nil => simp [replayCS]
  | cons a l ih =>
    cases a with
    | cs v => cases v <;> cases b <;> simp [replayCS, ih]
    | xfer x y => cases b <;> simp [replayCS, ih]

/-! The CRC loops (R100, R105). -/

theorem crcRun_append {w : Nat} (poly reg : BitVec w) (p q : List Byte) :
    crcRun poly reg (p ++ q) = crcRun poly (crcRun poly reg p) q := List.foldl_append

/-! Runs of several steps. -/

theorem steps_succ {n : Nat} {s t : State} (h : step s = .next t) : steps (n + 1) s = steps n t := by
  simp [steps, h]

theorem steps_append {m n : Nat} {s t : State} (h : steps m s = .next t) : steps (m + n) s = steps n t := by
  induction m generalizing s with
  | zero =>
    simp only [steps, Host.Outcome.next.injEq] at h
    simp [h]
  | succ m ih =>
    rw [Nat.add_right_comm]
    simp only [steps] at h ⊢
    split at h
    · exact ih h
    · cases h
    · cases h

/-- The model's runs are the host's. -/
theorem steps_eq_run (n : Nat) (s : State) : steps n s = Host.Core.run Sys2Proof.core n s := by
  induction n generalizing s with
  | zero => rfl
  | succ n ih =>
    cases h : step s with
    | next t =>
      have h' : Host.Core.step Sys2Proof.core s = .next t := h
      simp only [steps, Host.Core.run, h, h']
      exact ih t
    | fault r =>
      have h' : Host.Core.step Sys2Proof.core s = .fault r := h
      simp only [steps, Host.Core.run, h, h']
      rfl
    | refused r =>
      have h' : Host.Core.step Sys2Proof.core s = .refused r := h
      simp only [steps, Host.Core.run, h, h']
      rfl

/-! What the two kinds of decoded step can do: the frame rows, and the host requests. -/

/-- A frame that decodes in its slot begins an exchange (R135). -/
theorem issue_cases {s t : State} {i : Instr} (h : decodeFrame s.seq.own s.frameBuf = .ok i) (he : exec i s = .next t) :
    ∃ f rlen hasData, t = s.beginExchange f rlen hasData := by
  unfold decodeFrame at h
  split at h
  · cases h
    split at he
    · unfold Frame.own at he
      split at he <;> (try split at he) <;> (cases he; exact ⟨_, _, _, rfl⟩)
    · cases he
      exact ⟨_, _, _, rfl⟩
  · cases h

/-- A request is refused, or latched with its first exchange next; INIT alone is never refused (R204). -/
theorem request_cases {s t : State} {r : Request} (he : exec (decodeRequest r) s = .next t) :
    (t = s.takeRequest.refuse ∧ r.op ≠ 0b10) ∨
      (∃ op q id arg rlen data, t = (s.takeRequest.latchCommand op id arg rlen data).prepare q ∧
        (op = .cmd ∧ q = .cmd ∨ op = .acmd ∧ q = .acmdPrefix) ∧ commandValid s.params id rlen data = true ∧
        r.op ≠ 0b10) ∨
      (t = s.takeRequest.enterInit.prepare .initCmd0 ∧ r.op = 0b10) ∨
      (∃ op old new, t = (s.takeRequest.latchLock op old new).prepare .lockCmd16 ∧
        passwordsValid s.params old new = true ∧ r.op ≠ 0b10) := by
  have n0 : ∀ v : BitVec 2, v.toNat = 0 → v ≠ 0b10 := by decide
  have n1 : ∀ v : BitVec 2, v.toNat = 1 → v ≠ 0b10 := by decide
  have n2 : ∀ v : BitVec 2, v.toNat = 2 → v = 0b10 := by decide
  have n3 : ∀ v : BitVec 2, v.toNat ≠ 2 → v ≠ 0b10 := by decide
  unfold decodeRequest at he
  split at he
  · rename_i h0
    simp only [exec, execHostCmd, State.acceptCommand, Host.Outcome.next.injEq] at he
    split at he <;> subst he
    · exact .inr (.inl ⟨_, _, _, _, _, _, rfl, .inl ⟨rfl, rfl⟩, ‹_›, n0 _ h0⟩)
    · exact .inl ⟨rfl, n0 _ h0⟩
  · rename_i h0
    simp only [exec, execHostAcmd, State.acceptCommand, Host.Outcome.next.injEq] at he
    split at he <;> subst he
    · exact .inr (.inl ⟨_, _, _, _, _, _, rfl, .inr ⟨rfl, rfl⟩, ‹_›, n1 _ h0⟩)
    · exact .inl ⟨rfl, n1 _ h0⟩
  · rename_i h0
    simp only [exec, execHostInit, Host.Outcome.next.injEq] at he
    subst he
    exact .inr (.inr (.inl ⟨rfl, n2 _ h0⟩))
  · rename_i h2
    have hn := n3 _ h2
    simp only [exec, execHostLockunlock] at he
    split at he
    · cases he
      exact .inl ⟨rfl, hn⟩
    · split at he <;> cases he
      · exact .inr (.inr (.inr ⟨_, _, _, rfl, ‹_›, hn⟩))
      · exact .inl ⟨rfl, hn⟩

/-! The step of each phase, nothing keeping the engine from it. -/

section phases

variable {s : State} (hr : s.running = true)
include hr

theorem step_running :
    step s = match fetch s with
      | .instr i => exec i s
      | .sequencer => .next (sequence s)
      | .badFrame => .refused .notACommandFrame := by
  simp only [State.running, Bool.and_eq_true, Bool.not_eq_true'] at hr
  cases hf : fetch s <;> simp [step, State.waiting, hr.1, hr.2, hf]

theorem step_idle (hp : s.phase = .idle) (h : s.hostPort = []) : step s = .next s := by
  simp [step_running hr, fetch, sequence, hp, h]

theorem step_request {r : Request} {rest : List Request} (hp : s.phase = .idle) (h : s.hostPort = r :: rest) :
    step s = exec (decodeRequest r) s := by
  simp [step_running hr, fetch, fetchedOr, decode, hp, h]

/-- The frame of an exchange, built by FRAME, begins the exchange with its operands (R76, R81, R135). -/
theorem step_issue (hp : s.phase = .xAssert)
    (hf : s.frameBuf = buildFrame (exchangeId s.seq s.reqId) (exchangeArg s.seq s.reqArg s.params s.dbuf)) :
    step s = .next (s.beginExchange s.frameBuf (exchangeRlen s.seq s.reqRlen) (exchangeHasData s.seq s.reqHasData)) := by
  rw [step_running hr]
  simp only [fetch, hp, decode, hf, decode_issued, exec_issuedRow]

theorem step_transmit {i : Fin 6} (hp : s.phase = .xTx i) : step s = .next (txStep i s) := by
  simp [step_running hr, fetch, sequence, hp]

theorem step_pollIdle (hp : s.phase = .xPoll) (h : s.rxByte = 0xFF) :
    step s = .next (s.xferAs 0xFF 0xFF).countIdle := by
  simp [step_running hr, fetch, fetchedOr, decode, decodeResponse, hp, h, exec, execIdleByte, Config.idleByte,
    Config.fill]

theorem step_pollStatus (hp : s.phase = .xPoll) (h : s.rxByte ≠ 0xFF) :
    step s = .next (s.statusReceived s.rxByte) := by
  have h' : ¬ s.rxByte = Config.idleByte := h
  simp [step_running hr, fetch, fetchedOr, decode, decodeResponse, hp, h', exec, execStatus]

theorem step_collect (hp : s.phase = .xCollect) : step s = .next (collectStep s) := by
  simp [step_running hr, fetch, sequence, hp]

theorem step_start (hp : s.phase = .dStart) : step s = .next ((s.xfer 0xFE).setDptr 0).afterPayloadByte := by
  simp [step_running hr, fetch, fetchedOr, decode, hp, exec, execStartToken, Config.startToken]

/-- A payload byte is sent in the same way whether or not it is a row of the table (R146, R181). -/
theorem step_data {b : Byte} (hp : s.phase = .dData) (h : s.dbuf[s.dptr]? = some b) :
    step s = .next ((s.xfer b).setDptr (s.dptr + 1)).afterPayloadByte := by
  rw [step_running hr]
  by_cases hc : s.seq = .lockCmd42 ∧ s.dptr = 0
  · simp only [fetch, hp, hc, and_self, if_true]
    cases hb : s.dbuf with
    | nil => simp [hb] at h
    | cons c rest =>
      have e : c = b := by simpa [hb, hc.2] using h
      subst e
      simp only [decode, decodeOpByte]
      cases ho : LockOp.ofByte s.params.opBytes c with
      | none => simp [fetchedOr, sequence, hp, dataStep_eq h, hc.2]
      | some op => simp [fetchedOr, exec_opInstr, sendOpByte_eq hb (byte_of_ofByte ho)]
  · simp [fetch, hp, hc, sequence, dataStep_eq h]

theorem step_crc {k : Fin 2} (hp : s.phase = .dCrc k) : step s = .next (crcStep k s) := by
  simp [step_running hr, fetch, sequence, hp]

theorem step_tokenIdle (hp : s.phase = .dToken) (h : s.tokenIdle = true) :
    step s = .next (s.xferAs 0xFF 0xFF).countIdle := by
  simp [step_running hr, fetch, hp, h, exec, execIdleByte, Config.idleByte, Config.fill]

theorem step_tokenFirst (hp : s.phase = .dToken) (h : s.tokenIdle = false) (hb : s.rbuf = []) :
    step s = .next (tokenStep s) := by
  simp [step_running hr, fetch, sequence, hp, h, hb]

theorem step_tokenMore (hp : s.phase = .dToken) (hb : s.rbuf ≠ []) (hl : 1 < s.rleft) :
    step s = .next s.collectByte := by
  cases h : s.rbuf with
  | nil => exact absurd h hb
  | cons t rest =>
    have hi : s.tokenIdle = false := by simp [State.tokenIdle, h]
    simp [step_running hr, fetch, sequence, hp, hi, h, tokenStep, Nat.not_le.mpr hl]

theorem step_tokenAccept {t : Byte} {rest : List Byte} (hp : s.phase = .dToken) (hb : s.rbuf = t :: rest)
    (hl : s.rleft ≤ 1) (ha : tokenAccepted t = true) : step s = .next (s.tokenAccept (t.extractLsb' 5 3)) := by
  have hi : s.tokenIdle = false := by simp [State.tokenIdle, hb]
  simp [step_running hr, fetch, fetchedOr, decode, decodeToken, hp, hi, hb, hl, ha, exec, execDrtAccept]

theorem step_tokenReject {t : Byte} {rest : List Byte} (hp : s.phase = .dToken) (hb : s.rbuf = t :: rest)
    (hl : s.rleft ≤ 1) (ha : tokenAccepted t = false) :
    step s = .next ((s.collectByte.setToken t).raise .dataWriteError t) := by
  have hi : s.tokenIdle = false := by simp [State.tokenIdle, hb]
  simp [step_running hr, fetch, fetchedOr, decode, decodeToken, sequence, tokenStep, hp, hi, hb, hl, ha]

theorem step_busy (hp : s.phase = .dBusy) (h : s.rxByte = 0x00) :
    step s = .next (s.xferAs 0xFF 0x00).countBusy := by
  simp [step_running hr, fetch, fetchedOr, decode, decodeBusy, hp, h, exec, execBusyByte, Config.busyByte, Config.fill]

theorem step_busyEnd (hp : s.phase = .dBusy) (h : s.rxByte ≠ 0x00) :
    step s = .next ((s.xfer 0xFF).goto .xRelease) := by
  have h' : ¬ s.rxByte = Config.busyByte := h
  simp [step_running hr, fetch, fetchedOr, decode, decodeBusy, sequence, busyEndStep, hp, h', Config.fill]

theorem step_release (hp : s.phase = .xRelease) : step s = .next (releaseStep s) := by
  simp [step_running hr, fetch, sequence, hp]

theorem step_releaseErr {k : Kind} {info : Byte} (hp : s.phase = .xReleaseErr k info) :
    step s = .next (releaseErrStep k info s) := by
  simp [step_running hr, fetch, sequence, hp]

end phases

end Sys2Proof.Machine
end

