-- ==== Sys2Proof/Laws/PerInstr.lean ====
section
/-! SUPPORT. One statement per instruction about its syntax: the encoder's word has the fixed bits of the
instruction's row in the opcode table. -/

namespace Sys2Proof

/-- The bytes of a word, first byte first; a host request's word is its REQ_OP code (R92). -/
def Code.bytes : Code → List Byte
  | .request r => [r.op.zeroExtend 8]
  | .frame f => f.bytes
  | .byte b => [b]

/-- The row's fixed bits as (mask, match), byte by byte, from spec/opcode_table.json. STATUS has none: R84 gives the
bytes with bit 7 set the same meaning (log entry 28). -/
def Instr.row : Instr → List (Byte × Byte)
  | .cmd _ _ _ => [(0xC0, 0x40), (0, 0), (0, 0), (0, 0), (0, 0), (0x01, 0x01)]
  | .cmd0 => [(0xFF, 0x40), (0xFF, 0), (0xFF, 0), (0xFF, 0), (0xFF, 0), (0xFF, 0x95)]
  | .cmd8 _ _ => [(0xFF, 0x48), (0, 0), (0, 0), (0, 0), (0xFF, 0x1A), (0x01, 0x01)]
  | .cmd58 => [(0xFF, 0x7A), (0xFF, 0), (0xFF, 0), (0xFF, 0), (0xFF, 0), (0xFF, 0xFD)]
  | .cmd55 => [(0xFF, 0x77), (0xFF, 0), (0xFF, 0), (0xFF, 0), (0xFF, 0), (0xFF, 0x65)]
  | .acmd41 _ _ => [(0xFF, 0x69), (0, 0), (0, 0), (0, 0), (0, 0), (0x01, 0x01)]
  | .cmd16 _ _ => [(0xFF, 0x50), (0, 0), (0, 0), (0, 0), (0, 0), (0x01, 0x01)]
  | .cmd42 => [(0xFF, 0x6A), (0xFF, 0), (0xFF, 0), (0xFF, 0), (0xFF, 0), (0xFF, 0x51)]
  | .acmd13 => [(0xFF, 0x4D), (0xFF, 0), (0xFF, 0), (0xFF, 0), (0xFF, 0), (0xFF, 0x0D)]
  | .startToken => [(0xFF, 0xFE)]
  | .drtAccept _ => [(0x1F, 0x05)]
  | .idleByte => [(0xFF, 0xFF)]
  | .busyByte => [(0xFF, 0x00)]
  | .status _ => [(0x00, 0x00)]
  | .opUnlock => [(0xFF, 0x00)]
  | .opSetpassword => [(0xFF, 0x01)]
  | .opClearpassword => [(0xFF, 0x02)]
  | .opLocknow => [(0xFF, 0x04)]
  | .opForceerase => [(0xFF, 0x08)]
  | .hostCmd _ _ _ _ => [(0x03, 0x00)]
  | .hostAcmd _ _ _ _ => [(0x03, 0x01)]
  | .hostInit => [(0x03, 0x02)]
  | .hostLockunlock _ _ _ => [(0x03, 0x03)]

/-- The bytes have the row's fixed bits, and no byte is missing. -/
def matchesRow (bytes : List Byte) (row : List (Byte × Byte)) : Prop :=
  bytes.length = row.length ∧ List.zipWith (fun b m => b &&& m.1) bytes row = row.map (·.2)

theorem commandByte_fixed : ∀ id : BitVec 6, Machine.commandByte id &&& 0xC0 = 0x40 := by decide

theorem crcField_fixed : ∀ k : BitVec 7, Machine.crcField k &&& 0x01 = 0x01 := by decide

/-- A frame whose command byte is fixed to one index. -/
theorem assembled_matches (id : BitVec 6) (arg : Word) (k : BitVec 7) (b : Byte)
    (h : Machine.commandByte id &&& 0xFF = b) :
    matchesRow (Machine.assembleFrame id arg k).bytes [(0xFF, b), (0, 0), (0, 0), (0, 0), (0, 0), (0x01, 0x01)] := by
  refine ⟨rfl, ?_⟩
  simp only [Machine.assembleFrame, Frame.bytes, List.zipWith, h, crcField_fixed k, List.map]
  simp

namespace Laws.RowPattern

/-- A well-formed instruction's word has its row's fixed bits. -/
def Statement (i : Instr) : Prop := i.wf = true → matchesRow (encode i).bytes i.row

theorem cmd (id : BitVec 6) (arg : Word) (k : BitVec 7) : Statement (.cmd id arg k) := by
  intro _
  refine ⟨rfl, ?_⟩
  simp only [encode, Code.bytes, Instr.row, Machine.assembleFrame, Frame.bytes, List.zipWith, commandByte_fixed id,
    crcField_fixed k, List.map]
  simp

theorem cmd0 : Statement .cmd0 := fun _ => ⟨rfl, by decide⟩

theorem cmd8 (hi : BitVec 24) (k : BitVec 7) : Statement (.cmd8 hi k) := by
  intro _
  refine ⟨rfl, ?_⟩
  have h8 : Machine.commandByte 8 &&& 0xFF = 0x48 := by decide
  have h4 : (hi ++ (0x1A : Byte) : Word).extractLsb' 0 8 = 0x1A := (cmd8_bytes hi k).1
  simp only [encode, Code.bytes, Instr.row, Machine.assembleFrame, Frame.bytes, List.zipWith, h8, h4, crcField_fixed k,
    List.map]
  simp

theorem cmd58 : Statement .cmd58 := fun _ => ⟨rfl, by decide⟩

theorem cmd55 : Statement .cmd55 := fun _ => ⟨rfl, by decide⟩

theorem acmd41 (arg : Word) (k : BitVec 7) : Statement (.acmd41 arg k) :=
  fun _ => assembled_matches 41 arg k 0x69 (by decide)

theorem cmd16 (arg : Word) (k : BitVec 7) : Statement (.cmd16 arg k) :=
  fun _ => assembled_matches 16 arg k 0x50 (by decide)

theorem cmd42 : Statement .cmd42 := fun _ => ⟨rfl, by decide⟩

theorem acmd13 : Statement .acmd13 := fun _ => ⟨rfl, by decide⟩

theorem startToken : Statement .startToken := fun _ => ⟨rfl, by decide⟩

theorem drtAccept (upper : BitVec 3) : Statement (.drtAccept upper) :=
  fun _ => ⟨rfl, by revert upper; decide⟩

theorem idleByte : Statement .idleByte := fun _ => ⟨rfl, by decide⟩

theorem busyByte : Statement .busyByte := fun _ => ⟨rfl, by decide⟩

theorem status (value : Byte) : Statement (.status value) := by
  intro _
  refine ⟨rfl, ?_⟩
  simp [encode, Code.bytes, Instr.row]

theorem opUnlock : Statement .opUnlock := fun _ => ⟨rfl, by decide⟩

theorem opSetpassword : Statement .opSetpassword := fun _ => ⟨rfl, by decide⟩

theorem opClearpassword : Statement .opClearpassword := fun _ => ⟨rfl, by decide⟩

theorem opLocknow : Statement .opLocknow := fun _ => ⟨rfl, by decide⟩

theorem opForceerase : Statement .opForceerase := fun _ => ⟨rfl, by decide⟩

theorem hostCmd (commandId : Byte) (argument responseLen : Word) (data : Option (List Byte)) :
    Statement (.hostCmd commandId argument responseLen data) :=
  fun _ => ⟨rfl, (by decide : [(HostOp.cmd.code.zeroExtend 8 : Byte) &&& 0x03] = [0x00])⟩

theorem hostAcmd (commandId : Byte) (argument responseLen : Word) (data : Option (List Byte)) :
    Statement (.hostAcmd commandId argument responseLen data) :=
  fun _ => ⟨rfl, (by decide : [(HostOp.acmd.code.zeroExtend 8 : Byte) &&& 0x03] = [0x01])⟩

theorem hostInit : Statement .hostInit := fun _ => ⟨rfl, rfl⟩

theorem hostLockunlock (operation : BitVec 3) (oldPassword newPassword : List Byte) :
    Statement (.hostLockunlock operation oldPassword newPassword) :=
  fun _ => ⟨rfl, (by decide : [(HostOp.lockUnlock.code.zeroExtend 8 : Byte) &&& 0x03] = [0x03])⟩

end Laws.RowPattern

end Sys2Proof
end

