-- ==== Sys2Proof/Tests/Slice0.lean ====
section
/-! SUPPORT. The model's own tests: ill-formed terms are refused, words written out from the spec's encodings decode to
their instructions, the vectors of spec/95_test_vectors.md, one step of each instruction, and for every statement with
hypotheses a witness that meets them. Expected values are the spec's, or are worked out by hand from its rules. -/

namespace Sys2Proof.Tests

open Machine

set_option Elab.async false

/-! ### Helpers -/

/-- The next state of an outcome. -/
def nextOf : Host.Outcome State Fault Refusal → Option State
  | .next s => some s
  | .fault _ => none
  | .refused _ => none

/-- The next state of a step. -/
def after (s : State) : Option State := nextOf (step s)

/-- A state inside a host CMD with the two-byte payload AA 55 (V7), in a phase with chip-select asserted. -/
def inExchange (p : Phase) (rx : List Byte) : State :=
  { State.reset with
    phase := p, cs := true, trace := [.cs true], reqHasData := true, xHasData := true, dbuf := [0xAA, 0x55], rx := rx }

/-- A state inside a host CMD without data, in a phase with chip-select asserted. -/
def inCommand (p : Phase) (rx : List Byte) : State :=
  { State.reset with phase := p, cs := true, trace := [.cs true], rx := rx }

/-- CMD(0, 0) at X_ASSERT. -/
def cmd0Ready (rx : List Byte) : State :=
  { State.reset with phase := .xAssert, frameBuf := buildFrame 0 0, rx := rx }

/-- CMD(0, 0) with the payload AA 55 at X_ASSERT. -/
def dataReady (rx : List Byte) : State :=
  { State.reset with
    phase := .xAssert, frameBuf := buildFrame 0 0, reqHasData := true, dbuf := [0xAA, 0x55], rx := rx }

/-- The end of an exchange, at X_RELEASE. -/
def atRelease (q : Seq) (status : Byte) (payload : List Byte) : State :=
  { State.reset with
    phase := .xRelease, cs := true, trace := [.cs true], seq := q, reqOp := q.op, status := status, payload := payload }

/-- Parameters with a bounded busy wait of 4 and small buffers (V5, R27). -/
def bounded : Config.Params :=
  { Config.defaults with busyBound := some 4, rbufCap := some 5, dbufCap := some 257 }

/-- Parameters with the prefix check (R154). -/
def checked : Config.Params := { Config.defaults with acmdCheckPrefix := true }

/-- Parameters with the raw token read (R148). -/
def raw : Config.Params := { Config.defaults with drtViaPoller := false }

/-! ### Well-formedness: one ill-formed term per check, and well-formed neighbours -/

theorem test_wf_cmd_crc : (Instr.cmd 0 0 0x4B).wf = false := by decide +kernel
theorem test_wf_cmd_good : (Instr.cmd 0 0 0x4A).wf = true := by decide +kernel
theorem test_wf_cmd8_crc : (Instr.cmd8 0 0x23).wf = false := by decide +kernel
theorem test_wf_cmd8_good : (Instr.cmd8 0 0x22).wf = true := by decide +kernel
theorem test_wf_acmd41_crc : (Instr.acmd41 0x40000000 0x3A).wf = false := by decide +kernel
theorem test_wf_acmd41_good : (Instr.acmd41 0x40000000 0x3B).wf = true := by decide +kernel
theorem test_wf_cmd16_crc : (Instr.cmd16 6 0x2B).wf = false := by decide +kernel
theorem test_wf_cmd16_good : (Instr.cmd16 6 0x2A).wf = true := by decide +kernel
theorem test_wf_status_idle : (Instr.status 0xFF).wf = false := by decide
theorem test_wf_status_good : (Instr.status 0xFE).wf = true := by decide
theorem test_wf_hostCmd_id : (Instr.hostCmd 64 0 0 none).wf = false := by decide
theorem test_wf_hostCmd_data : (Instr.hostCmd 63 0 0 (some [])).wf = false := by decide
theorem test_wf_hostAcmd_id : (Instr.hostAcmd 255 0 0 none).wf = false := by decide
theorem test_wf_hostAcmd_data : (Instr.hostAcmd 13 0 0 (some [])).wf = false := by decide
theorem test_wf_hostLockunlock_op : (Instr.hostLockunlock 5 [] []).wf = false := by decide
theorem test_wf_hostLockunlock_len :
    (Instr.hostLockunlock 0 (List.replicate 200 0x31) (List.replicate 56 0x31)).wf = false := by decide +kernel

/-! ### Decoding: the words of spec/opcode_table.json and V3, written out byte by byte -/

theorem test_decode_cmd :
    decode (.frame false) (.frame ⟨0x58, 0x12, 0x34, 0x56, 0x78, 0x67⟩) = .ok (.cmd 24 0x12345678 0x33) := by decide
theorem test_decode_cmd_host_zero :
    decode (.frame false) (.frame ⟨0x40, 0x00, 0x00, 0x00, 0x00, 0x95⟩) = .ok (.cmd 0 0 0x4A) := by decide
theorem test_decode_cmd0 :
    decode (.frame true) (.frame ⟨0x40, 0x00, 0x00, 0x00, 0x00, 0x95⟩) = .ok .cmd0 := by decide
theorem test_decode_cmd8 :
    decode (.frame true) (.frame ⟨0x48, 0x00, 0x00, 0x01, 0x1A, 0x53⟩) = .ok (.cmd8 0x000001 0x29) := by decide
theorem test_decode_cmd58 :
    decode (.frame true) (.frame ⟨0x7A, 0x00, 0x00, 0x00, 0x00, 0xFD⟩) = .ok .cmd58 := by decide
theorem test_decode_cmd55 :
    decode (.frame true) (.frame ⟨0x77, 0x00, 0x00, 0x00, 0x00, 0x65⟩) = .ok .cmd55 := by decide
theorem test_decode_acmd41 :
    decode (.frame true) (.frame ⟨0x69, 0x40, 0x00, 0x00, 0x00, 0x77⟩) = .ok (.acmd41 0x40000000 0x3B) := by decide
theorem test_decode_cmd16 :
    decode (.frame true) (.frame ⟨0x50, 0x00, 0x00, 0x02, 0x00, 0x15⟩) = .ok (.cmd16 0x200 0x0A) := by decide
theorem test_decode_cmd42 :
    decode (.frame true) (.frame ⟨0x6A, 0x00, 0x00, 0x00, 0x00, 0x51⟩) = .ok .cmd42 := by decide
theorem test_decode_acmd13 :
    decode (.frame true) (.frame ⟨0x4D, 0x00, 0x00, 0x00, 0x00, 0x0D⟩) = .ok .acmd13 := by decide
theorem test_decode_startToken : decode .packetStart (.byte 0xFE) = .ok .startToken := by decide
theorem test_decode_drtAccept : decode .token (.byte 0x25) = .ok (.drtAccept 0b001) := by decide
theorem test_decode_token_rejected : decode .token (.byte 0x15) = .error .rejectedToken := by decide
theorem test_decode_idleByte : decode .response (.byte 0xFF) = .ok .idleByte := by decide
theorem test_decode_busyByte : decode .busy (.byte 0x00) = .ok .busyByte := by decide
theorem test_decode_busy_ended : decode .busy (.byte 0x80) = .error .lineReleased := by decide
theorem test_decode_status : decode .response (.byte 0x00) = .ok (.status 0x00) := by decide
theorem test_decode_status_bit7 : decode .response (.byte 0x80) = .ok (.status 0x80) := by decide
theorem test_decode_opUnlock : decode (.opByte Config.opBytes) (.byte 0x00) = .ok .opUnlock := by decide
theorem test_decode_opSetpassword : decode (.opByte Config.opBytes) (.byte 0x01) = .ok .opSetpassword := by decide
theorem test_decode_opClearpassword : decode (.opByte Config.opBytes) (.byte 0x02) = .ok .opClearpassword := by decide
theorem test_decode_opLocknow : decode (.opByte Config.opBytes) (.byte 0x04) = .ok .opLocknow := by decide
theorem test_decode_opForceerase : decode (.opByte Config.opBytes) (.byte 0x08) = .ok .opForceerase := by decide
theorem test_decode_op_unknown : decode (.opByte Config.opBytes) (.byte 0x03) = .error .notALockOperation := by decide
theorem test_decode_hostCmd :
    decode .hostPort (.request ⟨0b00, 17, 5, 4, none, 0, [], []⟩) = .ok (.hostCmd 17 5 4 none) := by decide
theorem test_decode_hostAcmd :
    decode .hostPort (.request ⟨0b01, 41, 0, 0, some [0x01], 0, [], []⟩) = .ok (.hostAcmd 41 0 0 (some [0x01])) := by
  decide
theorem test_decode_hostInit : decode .hostPort (.request ⟨0b10, 1, 2, 3, none, 4, [], []⟩) = .ok .hostInit := by decide
theorem test_decode_hostLockunlock :
    decode .hostPort (.request ⟨0b11, 0, 0, 0, none, 4, [0x31], [0x32]⟩) = .ok (.hostLockunlock 4 [0x31] [0x32]) := by
  decide
theorem test_decode_start_bit :
    decode (.frame true) (.frame ⟨0xC0, 0x00, 0x00, 0x00, 0x00, 0x95⟩) = .error .notACommandFrame := by decide
theorem test_decode_stop_bit :
    decode (.frame true) (.frame ⟨0x40, 0x00, 0x00, 0x00, 0x00, 0x94⟩) = .error .notACommandFrame := by decide

/-! ### Vectors V1, V2, V3, V10 -/

theorem test_crc7_vectors :
    crc7 [0x40] = 0x64 ∧ crc7 [0x80] = 0x41 ∧ crc7 [0x01] = 0x09 ∧ crc7 [0xFF] = 0x79 ∧
      crc7 [0x50, 0x00, 0x00, 0x00, 0x06] = 0x2A ∧ crc7 [0x7F, 0xFF, 0xFF, 0xFF, 0xFF] = 0x0C := by decide +kernel
theorem test_crc16_vectors :
    crc16 [0x01] = 0x1021 ∧ crc16 [0x80] = 0x9188 ∧ crc16 [0xFF] = 0x1EF0 ∧ crc16 [0xAA, 0x55] = 0xF8E5 ∧
      crc16 [0x31, 0x32, 0x33, 0x34, 0x35, 0x36, 0x37, 0x38, 0x39] = 0x31C3 ∧
      crc16 [0x01, 0x04, 0x31, 0x32, 0x33, 0x34] = 0x1B2F ∧ crc16 [0x08, 0x00] = 0x89A9 := by decide +kernel
theorem test_frame_vectors :
    buildFrame 8 0x1A = ⟨0x48, 0x00, 0x00, 0x00, 0x1A, 0x45⟩ ∧ buildFrame 16 6 = ⟨0x50, 0x00, 0x00, 0x00, 0x06, 0x55⟩ ∧
      buildFrame 24 0x12345678 = ⟨0x58, 0x12, 0x34, 0x56, 0x78, 0x67⟩ ∧
      buildFrame 41 0 = ⟨0x69, 0x00, 0x00, 0x00, 0x00, 0xE5⟩ := by decide +kernel
theorem test_password_block :
    passwordBlock Config.defaults .setPassword [0x31, 0x32, 0x33, 0x34] [0x61, 0x62, 0x63, 0x64] =
      [0x01, 0x08, 0x31, 0x32, 0x33, 0x34, 0x61, 0x62, 0x63, 0x64] := by decide

/-! ### One step of each instruction, as the host places its word -/

theorem test_step_cmd0 :
    (after (State.reset.withFetchWord 48 0x400000000095)).map (fun t => (t.phase, t.cs, t.xRlen)) =
      some (.xTx 0, true, 0) := by decide +kernel
theorem test_step_cmd8 :
    (after (State.reset.withFetchWord 48 0x480000001A45)).map (fun t => (t.phase, t.xRlen, t.frameBuf.b4)) =
      some (.xTx 0, 4, 0x1A) := by decide +kernel
theorem test_step_cmd58 :
    (after (State.reset.withFetchWord 48 0x7A00000000FD)).map (fun t => (t.xRlen, t.xHasData)) = some (4, false) := by
  decide +kernel
theorem test_step_cmd55 :
    (after (State.reset.withFetchWord 48 0x770000000065)).map (fun t => (t.xRlen, t.trace)) =
      some (0, [.cs true]) := by decide +kernel
theorem test_step_acmd41 :
    (after (State.reset.withFetchWord 48 0x694000000077)).map (fun t => (t.phase, t.frameBuf.b1)) =
      some (.xTx 0, 0x40) := by decide +kernel
theorem test_step_cmd16 :
    (after (State.reset.withFetchWord 48 0x500000000655)).map (fun t => (t.phase, t.frameBuf.b4)) =
      some (.xTx 0, 0x06) := by decide +kernel
theorem test_step_cmd42 :
    (after (State.reset.withFetchWord 48 0x6A0000000051)).map (fun t => (t.phase, t.xHasData)) =
      some (.xTx 0, true) := by decide +kernel
theorem test_step_acmd13 :
    (after (State.reset.withFetchWord 48 0x4D000000000D)).map (fun t => (t.phase, t.xRlen)) = some (.xTx 0, 1) := by
  decide +kernel
theorem test_step_cmd :
    (after { cmd0Ready [] with frameBuf := ⟨0x51, 0x00, 0x00, 0x00, 0x00, 0x55⟩, reqRlen := 9 }).map
      (fun t => (t.phase, t.xRlen)) = some (.xTx 0, 9) := by decide +kernel
theorem test_step_startToken :
    (after (inExchange .dStart [0x77])).map (fun t => (t.phase, t.dptr, t.trace)) =
      some (.dData, 0, [.cs true, .xfer 0xFE 0x77]) := by decide +kernel
theorem test_step_drtAccept :
    (after { inExchange .dToken [0x09] with rbuf := [0xE5, 0x01, 0x02], rleft := 1 }).map
      (fun t => (t.phase, t.token, t.rbuf)) = some (.dBusy, 0xE5, [0xE5, 0x01, 0x02, 0x09]) := by decide +kernel
theorem test_step_drt_rejected :
    (after { inExchange .dToken [0x05] with rbuf := [0x0B, 0x00, 0x00], rleft := 1 }).map
      (fun t => (t.phase, t.token)) = some (.xReleaseErr .dataWriteError 0x0B, 0x0B) := by decide +kernel
theorem test_step_idleByte :
    (after { inCommand .xPoll [0xFF] with idleCnt := 6 }).map (fun t => (t.phase, t.idleCnt)) =
      some (.xPoll, 7) := by decide +kernel
theorem test_step_idleByte_last :
    (after { inCommand .xPoll [0xFF] with idleCnt := 7 }).map (fun t => (t.phase, t.idleCnt)) =
      some (.xReleaseErr .responseTimeout 0xFF, 8) := by decide +kernel
theorem test_step_busyByte :
    (after (inExchange .dBusy [0x00])).map (fun t => (t.phase, t.busyCnt)) = some (.dBusy, 0) := by decide +kernel
theorem test_step_busyByte_bound :
    (after { inExchange .dBusy [0x00] with params := bounded, busyCnt := 3 }).map (fun t => (t.phase, t.busyCnt)) =
      some (.xReleaseErr .cardUnresponsive 0x00, 4) := by decide +kernel
theorem test_step_status_error_data :
    (after (inExchange .xPoll [0x04])).map (fun t => (t.phase, t.error)) = some (.xRelease, true) := by decide +kernel
theorem test_step_status_idle_data :
    (after (inExchange .xPoll [0x01])).map (fun t => (t.phase, t.error)) = some (.dStart, false) := by decide +kernel
theorem test_step_opForceerase :
    (after { inExchange .dData [0x55] with seq := .lockCmd42, dbuf := [0x08, 0x00] }).map
      (fun t => (t.dptr, t.trace)) = some (1, [.cs true, .xfer 0x08 0x55]) := by decide +kernel
theorem test_exec_opUnlock :
    (nextOf (exec .opUnlock (inExchange .dData [0x55]))).map (fun t => (t.dbuf, t.dptr)) =
      some ([0x00, 0x55], 1) := by decide +kernel
theorem test_exec_opSetpassword :
    (nextOf (exec .opSetpassword (inExchange .dData [0x55]))).map (·.dbuf) = some [0x01, 0x55] := by decide +kernel
theorem test_exec_opClearpassword :
    (nextOf (exec .opClearpassword (inExchange .dData [0x55]))).map (·.dbuf) = some [0x02, 0x55] := by decide +kernel
theorem test_exec_opLocknow :
    (nextOf (exec .opLocknow (inExchange .dData [0x55]))).map (·.dbuf) = some [0x04, 0x55] := by decide +kernel
theorem test_step_hostCmd :
    (after (State.reset.withFetchWord 8 0)).map (fun t => (t.phase, t.frameBuf)) =
      some (.xAssert, ⟨0x40, 0x00, 0x00, 0x00, 0x00, 0x95⟩) := by decide +kernel
theorem test_step_hostCmd_refused :
    (after { State.reset with hostPort := [⟨0b00, 64, 0, 0, none, 0, [], []⟩] }).map
      (fun t => (t.phase, t.result.kind, t.result.payload, t.trace)) = some (.idle, .refused, [], []) := by decide +kernel
theorem test_step_hostAcmd :
    (after (State.reset.withFetchWord 8 1)).map (fun t => (t.seq, t.frameBuf.b0)) =
      some (.acmdPrefix, 0x77) := by decide +kernel
theorem test_step_hostInit :
    (after { State.reset.withFetchWord 8 2 with initState := .ready, ocrPre := some [0, 1, 2, 3] }).map
      (fun t => (t.initState, t.ocrPre)) = some (.reset, none) := by decide +kernel
theorem test_step_hostLockunlock :
    (after { State.reset with hostPort := [⟨0b11, 0, 0, 0, none, 1, [], [0x31, 0x32, 0x33, 0x34]⟩] }).map
      (fun t => (t.dbuf, t.frameBuf)) =
      some ([0x01, 0x04, 0x31, 0x32, 0x33, 0x34], ⟨0x50, 0x00, 0x00, 0x00, 0x06, 0x55⟩) := by decide +kernel
theorem test_step_hostLockunlock_refused :
    (after { State.reset with hostPort := [⟨0b11, 0, 0, 0, none, 5, [], []⟩] }).map (·.result.kind) =
      some .refused := by decide +kernel

/-! ### Witnesses: for each statement with hypotheses, states and operands that meet them, clause by clause -/

/-- A step that answers a next state with a property. -/
theorem next_with {o : Host.Outcome State Fault Refusal} (p : State → Bool) (h : (nextOf o).any p = true) :
    ∃ t, o = .next t ∧ p t = true := by
  cases o with
  | next t => exact ⟨t, rfl, by simpa [nextOf] using h⟩
  | fault r => simp [nextOf] at h
  | refused r => simp [nextOf] at h

theorem wit_FrameIsInvertible :
    ((0 : BitVec 6), (0 : Word)) ≠ (0, 1) ∧ ((0 : BitVec 6), (0 : Word)) ≠ (63, 0) := by decide
theorem wit_FrameIsInvertible_valid :
    let f : Frame := ⟨0x7F, 0xFF, 0xFF, 0xFF, 0xFF, 0x19⟩
    f.b0.extractLsb' 6 2 = 0b01 ∧ f.b5.getLsbD 0 = true ∧ f.crc = crc7 [f.b0, f.b1, f.b2, f.b3, f.b4] := by
  decide +kernel
theorem wit_CrcLaws : ([0x40, 0x00] : List Byte).length = ([0xFF, 0x80] : List Byte).length := by decide
theorem wit_DecodeEncode :
    (Instr.cmd 63 0xFFFFFFFF 0x0C).wf = true ∧ Instr.cmd0.wf = true ∧ (Instr.cmd8 0 0x22).wf = true ∧
      (Instr.cmd16 6 0x2A).wf = true ∧ (Instr.drtAccept 7).wf = true ∧ (Instr.status 0x00).wf = true ∧
      (Instr.hostCmd 63 0xFFFFFFFF 0xFFFFFFFF (some [0x00])).wf = true ∧
      (Instr.hostLockunlock 4 [] []).wf = true := by decide +kernel
theorem wit_EncodeDecodeFrame :
    decodeFrame true ⟨0x50, 0x00, 0x00, 0x00, 0x06, 0x55⟩ = .ok (.cmd16 6 0x2A) ∧
      decodeFrame false ⟨0x50, 0x00, 0x00, 0x00, 0x06, 0x55⟩ = .ok (.cmd 16 6 0x2A) ∧
      decodeFrame true ⟨0x40, 0x00, 0x00, 0x00, 0x01, 0x95⟩ = .ok (.cmd 0 1 0x4A) := by decide
theorem wit_ResetState : ({ inExchange .dBusy [] with resetPin := true }).resetPin = true := by decide
theorem wit_ResetState_idle : ({ inExchange .dBusy [] with resetPin := true }).hardReset.hostPort = [] := by decide
theorem wit_WaitingChangesNothing :
    (State.reset.resetPin = false ∧ State.reset.phase = .idle ∧ State.reset.hostPort = []) ∧
      ({ inCommand .xPoll [] with stalled := true }).resetPin = false ∧
      ({ inCommand .xPoll [] with stalled := true }).stalled = true ∧ Phase.xPoll.transfers = true := by decide

theorem wit_StepRuns_request :
    let s := State.reset.withFetchWord 8 2
    s.running = true ∧ s.phase = .idle ∧ s.hostPort = [emptyRequest .init] ∧
      decode .hostPort (.request (emptyRequest .init)) = .ok .hostInit := by decide
theorem wit_StepRuns_frame :
    let s := cmd0Ready []
    s.running = true ∧ s.phase = .xAssert ∧
      decode (.frame s.seq.own) (.frame s.frameBuf) = .ok (.cmd 0 0 0x4A) := by decide +kernel
theorem wit_StepRuns_poll :
    let s := inCommand .xPoll [0x01]
    s.running = true ∧ s.phase = .xPoll ∧ decode .response (.byte s.rxByte) = .ok (.status 0x01) := by decide +kernel
theorem wit_StepRuns_start :
    (inExchange .dStart []).running = true ∧ (inExchange .dStart []).phase = .dStart ∧
      decode .packetStart (.byte 0xFE) = .ok .startToken := by decide
theorem wit_StepRuns_opByte :
    let s := { inExchange .dData [] with seq := .lockCmd42, dbuf := [0x08, 0x00] }
    s.running = true ∧ s.phase = .dData ∧ s.seq = .lockCmd42 ∧ s.dptr = 0 ∧ s.dbuf = [0x08, 0x00] ∧
      decode (.opByte s.params.opBytes) (.byte 0x08) = .ok .opForceerase := by decide
theorem wit_StepRuns_tokenIdle :
    let s := inExchange .dToken [0xFF]
    s.running = true ∧ s.phase = .dToken ∧ s.params.drtViaPoller = true ∧ s.rbuf = [] ∧ s.rxByte = 0xFF ∧
      decode .response (.byte s.rxByte) = .ok .idleByte := by decide +kernel
theorem wit_StepRuns_token :
    let s := { inExchange .dToken [0x00] with rbuf := [0xE5, 0x00, 0x00], rleft := 1 }
    s.running = true ∧ s.phase = .dToken ∧ s.rbuf = [0xE5, 0x00, 0x00] ∧ s.rleft ≤ 1 ∧
      decode .token (.byte 0xE5) = .ok (.drtAccept 0b111) := by decide
theorem wit_StepRuns_busy :
    let s := inExchange .dBusy [0x00]
    s.running = true ∧ s.phase = .dBusy ∧ decode .busy (.byte s.rxByte) = .ok .busyByte := by decide +kernel

theorem wit_StatusRow : (inCommand .xPoll []).xRlen = 0 ∧ ({ inCommand .xPoll [] with xRlen := 0xFFFFFFFF }).xRlen ≠ 0 := by
  decide
theorem wit_IdleByteRow :
    (inCommand .xPoll []).cs = true ∧ (inCommand .xPoll []).idleCnt + 1 ≠ 8 ∧
      ({ inCommand .xPoll [] with idleCnt := 6 }).idleCnt + 1 ≠ 8 ∧
      ({ inCommand .xPoll [] with idleCnt := 7 }).idleCnt + 1 = 8 := by decide
theorem wit_BusyByteRow :
    (inExchange .dBusy []).cs = true ∧ (inExchange .dBusy []).params.busyBound = none ∧ bounded.busyBound = some 4 ∧
      ({ inExchange .dBusy [] with params := bounded, busyCnt := 2 }).busyCnt + 1 ≠ 4 ∧
      ({ inExchange .dBusy [] with params := bounded, busyCnt := 3 }).busyCnt + 1 = 4 := by decide
theorem wit_StartTokenRow : (inExchange .dStart []).dbuf ≠ [] ∧ (inCommand .dStart []).dbuf = [] := by decide
theorem wit_OpByteRows :
    let s := inExchange .dData []
    (Instr.opUnlock, (0x00 : Byte)) ∈ [(Instr.opUnlock, s.params.opBytes.unlock),
      (Instr.opSetpassword, s.params.opBytes.setPassword), (Instr.opClearpassword, s.params.opBytes.clearPassword),
      (Instr.opLocknow, s.params.opBytes.lockNow), (Instr.opForceerase, s.params.opBytes.forceErase)] ∧
    s.dbuf.tail ≠ [] ∧ ({ s with dbuf := [0x08] }).dbuf.tail = [] := by decide

/-- Boundary values: index 63, and a response and data that exactly fill bounded buffers. -/
theorem wit_HostCommandAccepted :
    (63 : Byte).toNat ≤ 63 ∧ (∀ c, bounded.rbufCap = some c → (4 : Word).toNat + 1 ≤ c) ∧
      (∀ d, some ([0xAA] : List Byte) = some d → d ≠ [] ∧ ∀ c, bounded.dbufCap = some c → d.length ≤ c) := by
  refine ⟨by decide, ?_, ?_⟩
  · rintro c ⟨⟩
    decide
  · rintro d ⟨⟩
    refine ⟨by decide, ?_⟩
    rintro c ⟨⟩
    decide
theorem wit_HostCommandRefused :
    63 < (64 : Byte).toNat ∧ (∃ c, bounded.rbufCap = some c ∧ c < (5 : Word).toNat + 1) ∧
      (∃ d c, some (List.replicate 258 (0x00 : Byte)) = some d ∧ bounded.dbufCap = some c ∧ c < d.length) :=
  ⟨by decide, ⟨5, rfl, by decide⟩, ⟨_, 257, rfl, rfl, by rw [List.length_replicate]; decide⟩⟩
theorem wit_HostLockunlockAccepted :
    (List.replicate 200 (0x31 : Byte)).length + (List.replicate 55 (0x32 : Byte)).length ≤ 255 ∧
      (∀ c, bounded.dbufCap = some c →
        2 + (List.replicate 200 (0x31 : Byte)).length + (List.replicate 55 (0x32 : Byte)).length ≤ c) := by
  rw [List.length_replicate, List.length_replicate]
  refine ⟨by decide, ?_⟩
  rintro c ⟨⟩
  decide
theorem wit_HostLockunlockRefused :
    4 < (5 : BitVec 3).toNat ∧ 255 < (List.replicate 200 (0x31 : Byte)).length + (List.replicate 56 (0x32 : Byte)).length ∧
      (∃ c, ({ bounded with dbufCap := some 257 }).dbufCap = some c ∧
        c < 2 + (List.replicate 256 (0x31 : Byte)).length + ([] : List Byte).length) :=
  ⟨by decide, by rw [List.length_replicate, List.length_replicate]; decide,
    ⟨257, rfl, by rw [List.length_replicate]; decide⟩⟩
theorem wit_HostLockunlockRefused_empty : State.reset.params.wf = true := by decide

theorem wit_FrameIsTransmitted :
    let s := inCommand (.xTx 0) [1, 2, 3, 4, 5, 6, 7]
    s.running = true ∧ s.phase = .xTx 0 ∧ ([1, 2, 3, 4, 5, 6] : List Byte).length = 6 ∧
      s.rx = [1, 2, 3, 4, 5, 6] ++ [7] := by decide
/-- Seven idle bytes, the last poll of the budget, and a one-byte reply 0xFF. -/
theorem wit_ReadResp_returns :
    let s := { inCommand .xPoll (List.replicate 7 0xFF ++ 0x01 :: [0xFF] ++ []) with xRlen := 1 }
    s.running = true ∧ s.phase = .xPoll ∧ s.idleCnt = 0 ∧ s.rbuf = [] ∧ s.cs = true ∧ 7 ≤ 7 ∧
      (0x01 : Byte) ≠ 0xFF ∧ ([0xFF] : List Byte).length = s.xRlen.toNat ∧
      s.rx = List.replicate 7 0xFF ++ 0x01 :: [0xFF] ++ [] := by decide
theorem wit_ReadResp_timeout :
    let s := inCommand .xPoll (List.replicate 8 0xFF ++ [0x01])
    s.running = true ∧ s.phase = .xPoll ∧ s.idleCnt = 0 ∧ s.rbuf = [] ∧ s.cs = true ∧
      s.rx = List.replicate 8 0xFF ++ [0x01] := by decide
theorem wit_DataPacketIsTransmitted :
    let s := inExchange .dStart ([1, 2, 3, 4, 5] ++ [])
    s.running = true ∧ s.phase = .dStart ∧ s.dbuf ≠ [] ∧ ([1, 2, 3, 4, 5] : List Byte).length = s.dbuf.length + 3 ∧
      s.rx = [1, 2, 3, 4, 5] ++ [] := by decide
theorem wit_TokenRead_poller :
    let s := inExchange .dToken (List.replicate 7 0xFF ++ [0xE5, 0, 0, 0] ++ [])
    s.running = true ∧ s.phase = .dToken ∧ s.cs = true ∧ s.rbuf = [] ∧ s.idleCnt = 0 ∧
      s.rx = List.replicate 7 0xFF ++ [0xE5, 0, 0, 0] ++ [] ∧
      (s.params.drtViaPoller = true ∧ 7 ≤ 7 ∧ (0xE5 : Byte) ≠ 0xFF) ∧ (0xE5 : Byte) &&& 0x1F = 0x05 := by decide
theorem wit_TokenRead_raw :
    let s := { inExchange .dToken (List.replicate 0 0xFF ++ [0xFF, 0, 0, 0] ++ []) with params := raw }
    s.running = true ∧ s.phase = .dToken ∧ s.cs = true ∧ s.rbuf = [] ∧ s.idleCnt = 0 ∧
      s.rx = List.replicate 0 0xFF ++ [0xFF, 0, 0, 0] ++ [] ∧
      (s.params.drtViaPoller = false ∧ 0 = 0) ∧ (0xFF : Byte) &&& 0x1F ≠ 0x05 := by decide
theorem wit_TokenRead_timeout :
    let s := inExchange .dToken (List.replicate 8 0xFF ++ [])
    s.running = true ∧ s.phase = .dToken ∧ s.cs = true ∧ s.rbuf = [] ∧ s.idleCnt = 0 ∧
      s.params.drtViaPoller = true ∧ s.rx = List.replicate 8 0xFF ++ [] := by decide
/-- V5: three zero bytes and 0x01 below a bound of 4. -/
theorem wit_BusyWait_ends :
    let s := { inExchange .dBusy (List.replicate 3 0x00 ++ 0x01 :: []) with params := bounded }
    s.running = true ∧ s.phase = .dBusy ∧ s.cs = true ∧ s.busyCnt = 0 ∧ (0x01 : Byte) ≠ 0x00 ∧
      s.rx = List.replicate 3 0x00 ++ 0x01 :: [] ∧ s.params.busyBound = some 4 ∧ 3 < 4 := by decide
theorem wit_BusyWait_bound :
    let s := { inExchange .dBusy (List.replicate 4 0x00 ++ []) with params := bounded }
    s.running = true ∧ s.phase = .dBusy ∧ s.cs = true ∧ s.busyCnt = 0 ∧ s.rx = List.replicate 4 0x00 ++ [] ∧ 0 < 4 ∧
      s.params.busyBound = some 4 := by decide
theorem wit_UnboundedBusyWait :
    let s := inExchange .dBusy (List.replicate 9 0x00 ++ [])
    s.running = true ∧ s.phase = .dBusy ∧ s.params.busyBound = none ∧ s.rx = List.replicate 9 0x00 ++ [] := by decide

theorem wit_Inv_cmd0Ready : (cmd0Ready ([0, 0, 0, 0, 0, 0] ++ List.replicate 8 0xFF ++ [])).Inv := by
  constructor <;> first | decide +kernel | (intros; simp_all [cmd0Ready, State.reset])
theorem wit_ResponseTimeoutEndsTheOperation :
    let s := cmd0Ready ([0, 0, 0, 0, 0, 0] ++ List.replicate 8 0xFF ++ [])
    s.running = true ∧ s.phase = .xAssert ∧ ([0, 0, 0, 0, 0, 0] : List Byte).length = 6 ∧
      s.rx = [0, 0, 0, 0, 0, 0] ++ List.replicate 8 0xFF ++ [] ∧ s.reqOp ≠ .init := by decide
/-- INIT at its first X_ASSERT, the card silent: the clause for INIT. -/
def initReady : State :=
  { cmd0Ready ([0, 0, 0, 0, 0, 0] ++ List.replicate 8 0xFF ++ []) with seq := .initCmd0, reqOp := .init }
theorem wit_Inv_initReady : initReady.Inv := by
  constructor <;> first | decide +kernel | (intros; simp_all [initReady, cmd0Ready, State.reset])
theorem wit_ResponseTimeoutEndsTheOperation_init :
    initReady.running = true ∧ initReady.phase = .xAssert ∧ initReady.reqOp = .init ∧
      initReady.rx = [0, 0, 0, 0, 0, 0] ++ List.replicate 8 0xFF ++ [] := by decide
theorem wit_Inv_cmd0Answered : (cmd0Ready ([0, 0, 0, 0, 0, 0] ++ List.replicate 1 0xFF ++ 0x01 :: [] ++ [])).Inv := by
  constructor <;> first | decide +kernel | (intros; simp_all [cmd0Ready, State.reset])
theorem wit_CmdWithoutDataWrite :
    let s := cmd0Ready ([0, 0, 0, 0, 0, 0] ++ List.replicate 1 0xFF ++ 0x01 :: [] ++ [])
    s.running = true ∧ s.phase = .xAssert ∧ s.seq = .cmd ∧ ([0, 0, 0, 0, 0, 0] : List Byte).length = 6 ∧ 1 ≤ 7 ∧
      (0x01 : Byte) ≠ 0xFF ∧ ([] : List Byte).length = s.reqRlen.toNat ∧
      s.rx = [0, 0, 0, 0, 0, 0] ++ List.replicate 1 0xFF ++ 0x01 :: [] ++ [] ∧ s.reqHasData = false := by decide
theorem wit_Inv_dataRefused : (dataReady ([0, 0, 0, 0, 0, 0] ++ List.replicate 7 0xFF ++ 0x04 :: [] ++ [])).Inv := by
  constructor <;> first | decide +kernel | (intros; simp_all [dataReady, State.reset])
theorem wit_CmdWithoutDataWrite_error :
    let s := dataReady ([0, 0, 0, 0, 0, 0] ++ List.replicate 7 0xFF ++ 0x04 :: [] ++ [])
    s.running = true ∧ s.phase = .xAssert ∧ s.seq = .cmd ∧ s.reqHasData = true ∧ 7 ≤ 7 ∧ (0x04 : Byte) ≠ 0xFF ∧
      ([] : List Byte).length = s.reqRlen.toNat ∧
      s.rx = [0, 0, 0, 0, 0, 0] ++ List.replicate 7 0xFF ++ 0x04 :: [] ++ [] ∧ (0x04 : Byte) &&& 0xFE ≠ 0 := by decide
/-- V7, "accepted". -/
def dataAccepted : State :=
  dataReady ([0, 0, 0, 0, 0, 0] ++ (List.replicate 1 0xFF ++ 0x00 :: []) ++ [0, 0, 0, 0, 0] ++
    (List.replicate 0 0xFF ++ [0xE5, 0, 0, 0]) ++ (List.replicate 2 0x00 ++ 0x01 :: []))
theorem wit_Inv_dataAccepted : dataAccepted.Inv := by
  constructor <;> first | decide +kernel | (intros; simp_all [dataAccepted, dataReady, State.reset])
theorem wit_CmdWithDataWrite :
    dataAccepted.running = true ∧ dataAccepted.phase = .xAssert ∧ dataAccepted.seq = .cmd ∧
      dataAccepted.reqHasData = true ∧ dataAccepted.params.drtViaPoller = true ∧
      ([0, 0, 0, 0, 0, 0] : List Byte).length = 6 ∧ ([0, 0, 0, 0, 0] : List Byte).length = dataAccepted.dbuf.length + 3 ∧
      1 ≤ 7 ∧ 0 ≤ 7 ∧ dataAccepted.params.busyBound = none ∧ (0xE5 : Byte) &&& 0x1F = 0x05 ∧ (0x01 : Byte) ≠ 0x00 ∧
      ([] : List Byte).length = dataAccepted.reqRlen.toNat ∧
      dataAccepted.rx = [0, 0, 0, 0, 0, 0] ++ (List.replicate 1 0xFF ++ 0x00 :: []) ++ [0, 0, 0, 0, 0] ++
        (List.replicate 0 0xFF ++ [0xE5, 0, 0, 0]) ++ (List.replicate 2 0x00 ++ 0x01 :: []) := by decide

theorem wit_CommandReturns :
    (let s := atRelease .cmd 0x80 []; s.running = true ∧ s.phase = .xRelease ∧ s.seq = .cmd) ∧
      (let s := atRelease .acmdTarget 0x00 []; s.running = true ∧ s.phase = .xRelease ∧ s.seq = .acmdTarget) := by
  decide
theorem wit_AcmdPrefixDiscarded :
    (let s := atRelease .acmdPrefix 0x7F []; s.running = true ∧ s.phase = .xRelease ∧ s.seq = .acmdPrefix ∧
      s.params.acmdCheckPrefix = false) ∧
      (let s := { atRelease .acmdPrefix 0x05 [] with params := checked }; s.running = true ∧ s.phase = .xRelease ∧
        s.seq = .acmdPrefix ∧ s.params.acmdCheckPrefix = true ∧ s.status &&& 0xFE ≠ 0) := by decide
theorem wit_InitResetLoop :
    (let s := atRelease .initCmd0 0x01 []; s.running = true ∧ s.phase = .xRelease ∧ s.seq = .initCmd0 ∧
      s.reqOp = .init ∧ s.status = 0x01) ∧
      (let s := { atRelease .initCmd0 0x00 [] with retryCnt := 14 }; s.status ≠ 0x01 ∧ s.retryCnt + 1 ≠ 16) ∧
      (let s := { atRelease .initCmd0 0x81 [] with retryCnt := 15 }; s.status ≠ 0x01 ∧ s.retryCnt + 1 = 16) := by decide
theorem wit_InitInterfaceCheck :
    (let s := atRelease .initCmd8 0x05 [0x00, 0x00, 0x00, 0x1A]; s.running = true ∧ s.phase = .xRelease ∧
      s.seq = .initCmd8 ∧ s.reqOp = .init ∧ s.payload = [0x00, 0x00, 0x00, 0x1A]) ∧
      (atRelease .initCmd8 0x01 [0x00, 0x00, 0x01, 0x1A]).payload ≠ [0x00, 0x00, 0x00, 0x1A] := by decide
theorem wit_InitOcrReads :
    (let s := atRelease .initCmd58Pre 0xFF [0, 0, 0, 0]; s.running = true ∧ s.phase = .xRelease ∧
      s.seq = .initCmd58Pre) ∧
      (let s := atRelease .initCmd58Post 0x00 [0xC0, 0xFF, 0x80, 0x00]; s.running = true ∧ s.phase = .xRelease ∧
        s.seq = .initCmd58Post) := by decide
theorem wit_InitOcrPollLoop :
    (let s := atRelease .initAcmd41 0x04 []; s.running = true ∧ s.phase = .xRelease ∧ s.seq = .initAcmd41 ∧
      s.reqOp = .init ∧ s.status &&& 0x01 = 0) ∧
      (let s := { atRelease .initAcmd41 0x01 [] with retryCnt := 1022 }; s.status &&& 0x01 ≠ 0 ∧
        s.retryCnt + 1 ≠ 1024) ∧
      (let s := { atRelease .initAcmd41 0x01 [] with retryCnt := 1023 }; s.status &&& 0x01 ≠ 0 ∧
        s.retryCnt + 1 = 1024) := by decide
theorem wit_InitPrefix :
    (let s := atRelease .initCmd55 0x05 []; s.running = true ∧ s.phase = .xRelease ∧ s.seq = .initCmd55 ∧
      s.reqOp = .init ∧ s.params.acmdCheckPrefix = false) ∧
      (let s := { atRelease .initCmd55 0x04 [] with params := checked }; s.params.acmdCheckPrefix = true ∧
        s.status &&& 0xFE ≠ 0 ∧ s.status &&& 0x01 = 0) ∧
      (let s := { atRelease .initCmd55 0x05 [] with params := checked, retryCnt := 1022 };
        s.params.acmdCheckPrefix = true ∧ s.status &&& 0xFE ≠ 0 ∧ s.status &&& 0x01 ≠ 0 ∧ s.retryCnt + 1 ≠ 1024) ∧
      (let s := { atRelease .initCmd55 0x05 [] with params := checked, retryCnt := 1023 };
        s.params.acmdCheckPrefix = true ∧ s.status &&& 0xFE ≠ 0 ∧ s.status &&& 0x01 ≠ 0 ∧ s.retryCnt + 1 = 1024) := by
  decide
theorem wit_LockBlockLengthCheck :
    (let s := atRelease .lockCmd16 0x40 []; s.running = true ∧ s.phase = .xRelease ∧ s.seq = .lockCmd16 ∧
      s.status &&& 0xFE ≠ 0) ∧ (atRelease .lockCmd16 0x01 []).status &&& 0xFE = 0 := by decide
theorem wit_LockConfirmation :
    (let s := atRelease .lockCmd42 0x04 []; s.running = true ∧ s.phase = .xRelease ∧ s.seq = .lockCmd42) ∧
      (let s := atRelease .lockCmd55 0x05 []; s.seq = .lockCmd55 ∧ s.params.acmdCheckPrefix = false) ∧
      (let s := { atRelease .lockCmd55 0x05 [] with params := checked }; s.seq = .lockCmd55 ∧
        s.params.acmdCheckPrefix = true ∧ s.status &&& 0xFE ≠ 0) ∧
      (atRelease .lockAcmd13 0x01 [0x00]).seq = .lockAcmd13 := by decide
theorem wit_ErrorEntry :
    (let s := inExchange (.xReleaseErr .dataWriteError 0x0B) []; s.running = true ∧
      s.phase = .xReleaseErr .dataWriteError 0x0B ∧ s.cs = true) ∧
      (let s := { State.reset with reqOp := .init }; s.cs = false ∧ s.reqOp = .init) ∧
      State.reset.cs = false ∧ State.reset.reqOp ≠ .init := by decide

theorem wit_StepKeepsInv : ∃ t, step (cmd0Ready ([0, 0, 0, 0, 0, 0] ++ List.replicate 8 0xFF ++ [])) = .next t :=
  (next_with (fun _ => true) (by decide +kernel)).imp fun _ h => h.1
theorem wit_ChipSelectBracketing :
    let s := inExchange .dBusy [0x00]
    s.cs = s.phase.selected ∧ replayCS s.trace false = some s.cs ∧ ∃ t, step s = .next t :=
  ⟨by decide, by decide, (next_with (fun _ => true) (by decide +kernel)).imp fun _ h => h.1⟩
theorem wit_PhaseTable_assert :
    (cmd0Ready ([0, 0, 0, 0, 0, 0] ++ List.replicate 8 0xFF ++ [])).running = true := by decide
theorem wit_Inv_start : (inExchange .dStart [0x00]).Inv := by
  constructor <;> first | decide +kernel | (intros; simp_all [inExchange, State.reset])
theorem wit_Inv_data : ({ inExchange .dData [0x00] with dptr := 1 }).Inv := by
  constructor <;> first | decide +kernel | (intros; simp_all [inExchange, State.reset])
theorem wit_Inv_crc : ({ inExchange (.dCrc 1) [0x00] with crc16 := crc16 [0xAA, 0x55] }).Inv := by
  constructor <;> first | decide +kernel | (intros; simp_all [inExchange, State.reset])
theorem wit_PhaseTable_start :
    ∃ t, step (inExchange .dStart [0x00]) = .next t ∧ (t.phase == .dData) = true :=
  next_with (·.phase == .dData) (by decide +kernel)
/-- The last payload byte. -/
theorem wit_PhaseTable_data :
    ∃ t, step { inExchange .dData [0x00] with dptr := 1 } = .next t ∧ (t.phase == .dCrc 0) = true :=
  next_with (·.phase == .dCrc 0) (by decide +kernel)
/-- A poll that ends the exchange, and one that goes on to the data write. -/
theorem wit_PhaseTable_poll :
    (∃ t, step (inCommand .xPoll [0x01]) = .next t ∧ (t.phase == .xRelease) = true) ∧
      ∃ t, step (inExchange .xPoll [0x00]) = .next t ∧ (t.phase == .dStart) = true :=
  ⟨next_with (·.phase == .xRelease) (by decide +kernel), next_with (·.phase == .dStart) (by decide +kernel)⟩
theorem wit_Inv_poll : (inCommand .xPoll [0x01]).Inv ∧ (inExchange .xPoll [0x00]).Inv := by
  refine ⟨?_, ?_⟩ <;> constructor <;>
    first | decide +kernel | (intros; simp_all [inCommand, inExchange, State.reset])
theorem wit_RequestIsStable :
    let s := inExchange .dStart [0x00]
    s.resetPin = false ∧ s.phase ≠ .idle ∧ ∃ t, step s = .next t :=
  ⟨by decide, by decide, wit_PhaseTable_start.imp fun _ h => h.1⟩
theorem wit_OnlyInitWritesInitState :
    (let s := inExchange .dStart [0x00]; s.resetPin = false ∧ s.phase ≠ .idle ∧ s.reqOp ≠ .init) ∧
      (emptyRequest .lockUnlock).op ≠ 0b10 := by decide
/-- A refused request at IDLE, as a step from a state with the invariant. -/
def refusedAtIdle : State := { State.reset with hostPort := [⟨0b00, 64, 0, 0, none, 0, [], []⟩] }
theorem wit_Inv_refusedAtIdle : refusedAtIdle.Inv := by
  constructor <;> first | decide +kernel | (intros; simp_all [refusedAtIdle, State.reset])
theorem wit_ResultKinds_refused :
    refusedAtIdle.resetPin = false ∧ refusedAtIdle.phase = .idle ∧ refusedAtIdle.hostPort ≠ [] ∧
      ∃ t, step refusedAtIdle = .next t ∧ (t.phase == .idle) = true :=
  ⟨by decide, by decide, by decide, next_with (·.phase == .idle) (by decide +kernel)⟩
theorem wit_Inv_atRelease : (atRelease .cmd 0x01 []).Inv := by
  constructor <;> first | decide +kernel | (intros; simp_all [atRelease, State.reset])
/-- The end of a CMD: the clauses of ResultKinds and ResultWrittenAtTheEnd for a step that ends an operation. -/
theorem wit_ResultKinds_ended :
    let s := atRelease .cmd 0x01 []
    s.resetPin = false ∧ s.phase ≠ .idle ∧ ∃ t, step s = .next t ∧ (t.phase == .idle) = true :=
  ⟨by decide, by decide, next_with (·.phase == .idle) (by decide +kernel)⟩
theorem wit_ResultWrittenAtTheEnd :
    (∃ t, step (inExchange .dStart [0x00]) = .next t ∧ (t.phase == .dData) = true) ∧
      State.reset.resetPin = false ∧ State.reset.phase = .idle ∧ State.reset.hostPort = [] :=
  ⟨wit_PhaseTable_start, by decide, by decide, by decide⟩
theorem wit_Inv_transmit : ({ inCommand (.xTx 5) [0x00] with frameBuf := buildFrame 0 0 }).Inv := by
  constructor <;> first | decide +kernel | (intros; simp_all [inCommand, State.reset])
theorem wit_ReceivedBytesDiscarded :
    ({ inCommand (.xTx 5) [0x00] with frameBuf := buildFrame 0 0 }).phase = .xTx 5 ∧
      (inExchange .dStart [0x00]).phase = .dStart ∧ ({ inExchange .dData [0x00] with dptr := 1 }).phase = .dData ∧
      ({ inExchange (.dCrc 1) [0x00] with crc16 := crc16 [0xAA, 0x55] }).phase = .dCrc 1 ∧
      (inExchange .dStart [0x00]).running = true := by decide
theorem wit_HostReads :
    (let s := { State.reset with
        ocrPre := some [0, 0, 0, 0], ocrPost := some [1, 2, 3, 4], initState := .failed, resultDelivered := true };
      s.ocrPre = some [0, 0, 0, 0] ∧ s.ocrPost = some [1, 2, 3, 4] ∧ s.initState = .failed ∧ s.phase = .idle ∧
        s.resultDelivered = true) ∧
      State.reset.ocrPre = none ∧ State.reset.ocrPost = none ∧ State.reset.initState ≠ .failed ∧
      State.reset.phase = .idle ∧ State.reset.resultDelivered = false ∧ (inCommand .xPoll []).phase ≠ .idle := by decide

/-- The end of a CMD with a one-byte reply, the smallest payload that is not empty (R24). -/
def replyAtRelease : State := { atRelease .cmd 0x01 [0x1A] with reqRlen := 1, xRlen := 1 }
theorem wit_Inv_replyAtRelease : replyAtRelease.Inv := by
  constructor <;> first | decide +kernel | (intros; simp_all [replyAtRelease, atRelease, State.reset])
theorem wit_ResultPayload_reply :
    replyAtRelease.resetPin = false ∧ replyAtRelease.phase ≠ .idle ∧ replyAtRelease.seq = .cmd ∧
      ∃ t, step replyAtRelease = .next t ∧ (t.phase == .idle && t.result.kind == .ok) = true :=
  ⟨by decide, by decide, by decide, next_with (fun t => t.phase == .idle && t.result.kind == .ok) (by decide +kernel)⟩
/-- A CMD whose response timed out, though a reply byte was asked for (R138, R201). -/
def timedOut : State := { inCommand (.xReleaseErr .responseTimeout 0xFF) [] with reqRlen := 1, xRlen := 1 }
theorem wit_Inv_timedOut : timedOut.Inv := by
  constructor <;> first | decide +kernel | (intros; simp_all [timedOut, inCommand, State.reset, raisable])
theorem wit_ResultPayload_error :
    timedOut.resetPin = false ∧ timedOut.phase ≠ .idle ∧
      ∃ t, step timedOut = .next t ∧ (t.phase == .idle && t.result.kind != .ok) = true :=
  ⟨by decide, by decide, next_with (fun t => t.phase == .idle && t.result.kind != .ok) (by decide +kernel)⟩
/-- An operation that ends normally at another exchange: ACMD13's reply byte is dropped (R187, R188). -/
theorem wit_ResultPayload_dropped :
    let s := atRelease .lockAcmd13 0x01 [0x00]
    s.resetPin = false ∧ s.phase ≠ .idle ∧ s.seq ≠ .cmd ∧ s.seq ≠ .acmdTarget ∧
      ∃ t, step s = .next t ∧ (t.phase == .idle && t.result.payload.isEmpty) = true :=
  ⟨by decide, by decide, by decide, by decide,
    next_with (fun t => t.phase == .idle && t.result.payload.isEmpty) (by decide +kernel)⟩
theorem wit_ResultPayload_refused :
    ∃ t, step refusedAtIdle = .next t ∧ (t.phase == .idle && t.result.payload.isEmpty) = true :=
  next_with (fun t => t.phase == .idle && t.result.payload.isEmpty) (by decide +kernel)

end Sys2Proof.Tests
end

/-! What the operations with branches and the sequencer's steps do to the parameters: nothing (R8). -/

namespace Sys2Proof.Machine

section params

variable (s : State)

@[simp] theorem State.raise_params (k : Kind) (info : Byte) : (s.raise k info).params = s.params :=
  raise_elim (fun t => t.params = s.params) (fun _ => by simp) (fun _ => by simp)

@[simp] theorem State.countIdle_params : s.countIdle.params = s.params := by
  unfold State.countIdle
  split <;> simp

@[simp] theorem State.countBusy_params : s.countBusy.params = s.params := by
  unfold State.countBusy
  split
  · rfl
  · split <;> simp

@[simp] theorem State.afterPayloadByte_params : s.afterPayloadByte.params = s.params := by
  unfold State.afterPayloadByte
  split <;> simp

@[simp] theorem State.sendOpByte_params (op : LockOp) : (s.sendOpByte op).params = s.params := by
  simp [State.sendOpByte]

@[simp] theorem State.statusReceived_params (b : Byte) : (s.statusReceived b).params = s.params := by
  unfold State.statusReceived
  split <;> simp

@[simp] theorem State.tokenAccept_params (upper : BitVec 3) : (s.tokenAccept upper).params = s.params := by
  simp [State.tokenAccept]

@[simp] theorem txStep_params (i : Fin 6) : (txStep i s).params = s.params := by
  unfold txStep
  split <;> simp

@[simp] theorem collectStep_params : (collectStep s).params = s.params := by
  unfold collectStep
  split <;> simp

@[simp] theorem dataStep_params : (dataStep s).params = s.params := by
  unfold dataStep
  split <;> simp

@[simp] theorem crcStep_params (k : Fin 2) : (crcStep k s).params = s.params := by
  unfold crcStep
  split <;> simp

@[simp] theorem tokenStep_params : (tokenStep s).params = s.params := by
  unfold tokenStep
  split
  · simp
  · split <;> simp

@[simp] theorem busyEndStep_params : (busyEndStep s).params = s.params := by
  simp [busyEndStep]

@[simp] theorem State.afterCmd0_params : s.afterCmd0.params = s.params := by
  unfold State.afterCmd0
  split
  · simp
  · split <;> simp

@[simp] theorem State.afterCmd8_params : s.afterCmd8.params = s.params := by
  unfold State.afterCmd8
  split <;> simp

@[simp] theorem State.afterAcmd41_params : s.afterAcmd41.params = s.params := by
  unfold State.afterAcmd41
  split
  · simp
  · split <;> simp

@[simp] theorem State.continueAfter_params : s.continueAfter.params = s.params := by
  cases hq : s.seq <;> simp only [State.continueAfter, hq]
  case acmdPrefix | initCmd55 | lockCmd16 | lockCmd55 => split <;> simp
  all_goals simp

@[simp] theorem releaseStep_params : (releaseStep s).params = s.params := by
  simp [releaseStep]

@[simp] theorem releaseErrStep_params (k : Kind) (info : Byte) : (releaseErrStep k info s).params = s.params := by
  simp [releaseErrStep]

@[simp] theorem State.hardReset_params : s.hardReset.params = s.params := rfl

end params

/-- A frame row only begins its exchange, which keeps the parameters. -/
theorem issue_params {s t : State} {i : Instr} (h : decodeFrame s.seq.own s.frameBuf = .ok i)
    (he : exec i s = .next t) : t.params = s.params := by
  obtain ⟨f, rlen, hasData, rfl⟩ := issue_cases h he
  simp

/-- A request, refused or latched, does not reach the parameters. -/
theorem request_params {s t : State} {r : Request} (he : exec (decodeRequest r) s = .next t) :
    t.params = s.params := by
  obtain ⟨rfl, -⟩ | ⟨op, q, id, arg, rlen, data, rfl, -⟩ | ⟨rfl, -⟩ | ⟨op, old, new, rfl, -⟩ := request_cases he
    <;> simp

/-- Every step of the engine proper keeps the parameters (R8). -/
theorem Active.params {s t : State} (h : Active s t) : t.params = s.params := by
  cases h
  case request he => exact request_params he
  case issue h he => exact issue_params h he
  all_goals simp

/-- Settles O54: a reset restores every register but the parameters (R8, R37), a wait changes nothing, and no case of a
step of the engine proper writes them. -/
theorem parametersNeverChange : Obligations.ParametersNeverChange := by
  intro s t h
  obtain ⟨-, rfl⟩ | ⟨-, -, rfl⟩ | ⟨-, -, hf⟩ := step_cases h
  · exact s.hardReset_params
  · rfl
  · exact (active_of_fetch hf).params

end Sys2Proof.Machine

/-! Reset and idling (R31, R37, R230): a step with the reset input raised is `hardReset`, and an engine at IDLE with no
request stays as it is whatever the transport does. -/

namespace Sys2Proof.Machine

theorem step_resetPin {s : State} (h : s.resetPin = true) : step s = .next s.hardReset := by
  simp [step, h]

/-- IDLE has no transfer for a stalled transport to hold up. -/
theorem not_waiting_of_idle {s : State} (hp : s.phase = .idle) : s.waiting = false := by
  simp [State.waiting, hp, Phase.transfers]

/-- As `step_idle`, but a stalled transport is allowed. -/
theorem step_noRequest {s : State} (hr : s.resetPin = false) (hp : s.phase = .idle) (h : s.hostPort = []) :
    step s = .next s := by
  have hf : fetch s = .sequencer := by simp [fetch, hp, h]
  have hs : sequence s = s := by simp [sequence, hp]
  simp [step, hr, not_waiting_of_idle hp, hf, hs]

/-- A reset's only event is the release of a chip-select that was asserted (R231). -/
theorem State.hardReset_trace (s : State) :
    s.hardReset.trace = s.trace ++ (if s.cs = true then [.cs false] else []) := by
  cases hcs : s.cs <;> simp [State.hardReset, hcs]

/-- Settles O8: a raised reset input leads to `hardReset`, whose registers are those of R37; with its reset input taken
it is idle without a request, as the state right after reset is. -/
theorem resetState : Obligations.ResetState :=
  ⟨fun s h => ⟨s.hardReset, step_resetPin h, rfl, rfl, rfl, rfl, rfl, rfl, s.hardReset_params, s.hardReset_trace,
      step_noRequest rfl rfl⟩,
    rfl, rfl, rfl, rfl, rfl, rfl, step_noRequest rfl rfl rfl⟩

end Sys2Proof.Machine

/-! The bytes of a frame as numbers (R72 to R74, R52): what an or with the start bit or the stop bit adds, and the
argument from its four bytes. -/

namespace Sys2Proof

open Machine

/-- The start bits `01` stand above a 6-bit index, so setting them adds 0x40 (R72). -/
theorem commandByte_toNat : ∀ id : BitVec 6, (commandByte id).toNat = 0x40 + id.toNat := by
  decide

/-- The shift leaves bit 0 clear, so the stop bit adds 1 (R74). -/
theorem crcField_toNat : ∀ k : BitVec 7, (crcField k).toNat = 2 * k.toNat + 1 := by
  decide

/-- As `word_of_bytes`, on numbers (R52). -/
theorem toNat_word_of_bytes (a : Word) :
    a.toNat = (((a.extractLsb' 24 8).toNat * 256 + (a.extractLsb' 16 8).toNat) * 256 +
      (a.extractLsb' 8 8).toNat) * 256 + (a.extractLsb' 0 8).toNat := by
  simp only [BitVec.extractLsb'_toNat, Nat.shiftRight_eq_div_pow]
  omega

/-- R110's example with every field all ones. -/
theorem buildFrame_allOnes : buildFrame 63 0xFFFFFFFF = ⟨0x7F, 0xFF, 0xFF, 0xFF, 0xFF, 0x19⟩ := by
  decide +kernel

/-- Settles O1: byte 0 and byte 5 are the command byte and the CRC field as numbers, the CRC field being over the very
bytes 0 to 4 of the frame, and two of R110's examples are fixed frames of R81. -/
theorem frameBytes : Obligations.FrameBytes := by
  obtain ⟨cmd0, -, -, cmd55, -⟩ := fixed_frames
  refine ⟨fun id arg => ⟨?_, ?_, ?_⟩, cmd0, buildFrame_allOnes, cmd55⟩
  · exact commandByte_toNat id
  · exact toNat_word_of_bytes arg
  · exact crcField_toNat (frameCrc id arg)

end Sys2Proof

/-! The laws of the CRC loops, for a register of any width and any generator polynomial (R101, R106). The loop is linear
in the register and the input together, so from the zero register it is linear in the input and stays zero on zero
bytes; and the register's own top bits cancel the feedback, so feeding them in only shifts the register. -/

namespace Sys2Proof.Machine

section crcLaws

variable {w : Nat} (poly : BitVec w)

/-- What one bit adds to the shifted register: the generator, or nothing. -/
def crcFeedback (t : Bool) : BitVec w := if t then poly else 0

theorem crcFeedback_xor (t u : Bool) : crcFeedback poly (t ^^ u) = crcFeedback poly t ^^^ crcFeedback poly u := by
  cases t <;> cases u <;> simp [crcFeedback]

theorem crcBit_eq (r : BitVec w) (b : Bool) : crcBit poly r b = r <<< 1 ^^^ crcFeedback poly (r.msb ^^ b) := by
  cases h : r.msb ^^ b <;> simp [crcBit, crcFeedback, h]

theorem crcBit_xor (r r' : BitVec w) (b b' : Bool) :
    crcBit poly (r ^^^ r') (b ^^ b') = crcBit poly r b ^^^ crcBit poly r' b' := by
  simp only [crcBit_eq, BitVec.msb_xor, BitVec.shiftLeft_xor_distrib, crcFeedback_xor]
  ac_rfl

theorem crcByte_xor (r r' : BitVec w) (a b : Byte) :
    crcByte poly (r ^^^ r') (a ^^^ b) = crcByte poly r a ^^^ crcByte poly r' b := by
  simp only [crcByte, bitsMsbFirst, List.foldl, BitVec.getLsbD_xor, crcBit_xor]

theorem crcRun_xor (r r' : BitVec w) (p q : List Byte) (h : p.length = q.length) :
    crcRun poly (r ^^^ r') (List.zipWith (· ^^^ ·) p q) = crcRun poly r p ^^^ crcRun poly r' q := by
  induction p generalizing q r r' with
  | nil =>
    obtain rfl := List.length_eq_zero_iff.mp h.symm
    rfl
  | cons a p ih =>
    cases q with
    | nil => cases h
    | cons b q =>
      have tail := ih (crcByte poly r a) (crcByte poly r' b) q (Nat.succ.inj h)
      rwa [← crcByte_xor] at tail

theorem crcByte_zero : crcByte poly 0 0 = 0 := by
  simp [crcByte, bitsMsbFirst, crcBit]

theorem crcRun_zeros (n : Nat) : crcRun poly 0 (List.replicate n 0) = 0 := by
  induction n with
  | zero => rfl
  | succ n ih =>
    calc crcRun poly 0 (List.replicate (n + 1) 0)
      _ = crcRun poly (crcByte poly 0 0) (List.replicate n 0) := rfl
      _ = 0 := by rw [crcByte_zero, ih]

theorem crcRun_leadingZeros (n : Nat) (p : List Byte) :
    crcRun poly 0 (List.replicate n 0 ++ p) = crcRun poly 0 p := by
  rw [crcRun_append, crcRun_zeros]

theorem crcBit_topBit (c : BitVec w) (n : Nat) : crcBit poly (c <<< n) (c.getMsbD n) = c <<< (n + 1) := by
  simp [crcBit, BitVec.msb_shiftLeft, BitVec.shiftLeft_add]

theorem crcByte_topByte (c : BitVec w) (n : Nat) (b : Byte) (h : ∀ i < 8, b.getMsbD i = c.getMsbD (n + i)) :
    crcByte poly (c <<< n) b = c <<< (n + 8) := by
  have bits : bitsMsbFirst b = (List.range 8).map fun i => c.getMsbD (n + i) := by
    rw [← List.map_congr_left fun i hi => h i (List.mem_range.mp hi)]
    rfl
  simp only [crcByte, bits, List.range, List.range.loop, List.map, List.foldl, Nat.add_zero, crcBit_topBit]

end crcLaws

/-- The byte that stands `n` bits below the top of a 16-bit register. -/
theorem getMsbD_byte (c : BitVec 16) (n : Nat) (hn : n ≤ 8) :
    ∀ i < 8, (c.extractLsb' (8 - n) 8).getMsbD i = c.getMsbD (n + i) := by
  intro i hi
  have bit : 8 - n + (7 - i) = 15 - (n + i) := by omega
  have inByte : 7 - i < 8 := by omega
  have inReg : n + i < 16 := by omega
  simp only [BitVec.getMsbD_eq_getLsbD, BitVec.getLsbD_extractLsb', Nat.reduceSub, hi, inByte, inReg, bit, decide_true,
    Bool.true_and]

/-- A 16-bit register over its own two bytes, high byte first, is shifted out whole (R106). -/
theorem crcRun_trailer (poly c : BitVec 16) : crcRun poly c [trailerHigh c, trailerLow c] = 0 := by
  have high : crcByte poly c (trailerHigh c) = c <<< 8 := by
    have h := crcByte_topByte poly c 0 (trailerHigh c) (getMsbD_byte c 0 (by decide))
    rwa [BitVec.shiftLeft_zero] at h
  have low : crcByte poly (c <<< 8) (trailerLow c) = c <<< 16 :=
    crcByte_topByte poly c 8 (trailerLow c) (getMsbD_byte c 8 (by decide))
  calc crcRun poly c [trailerHigh c, trailerLow c]
    _ = crcByte poly (crcByte poly c (trailerHigh c)) (trailerLow c) := rfl
    _ = c <<< 16 := by rw [high, low]
    _ = 0 := BitVec.shiftLeft_eq_zero (Nat.le_refl 16)

/-- Settles O3: the CRC7 is the loop from the zero register, so the loop's laws are its laws; (d) of R101 is equality of
functions, value by value. -/
theorem crc7Laws : Obligations.Crc7Laws :=
  ⟨crcRun_xor Config.crc7Poly 0 0, crcRun_append Config.crc7Poly 0, crcRun_leadingZeros Config.crc7Poly,
    fun _ => funext_iff⟩

/-- Settles O4: as for the CRC7, and the trailer is run from the payload's own CRC16. -/
theorem crc16Laws : Obligations.Crc16Laws := by
  refine ⟨crcRun_xor Config.crc16Poly 0 0, crcRun_append Config.crc16Poly 0, crcRun_leadingZeros Config.crc16Poly,
    fun _ => funext_iff, fun p => ?_⟩
  calc crc16 (p ++ [trailerHigh (crc16 p), trailerLow (crc16 p)])
    _ = crcRun Config.crc16Poly (crc16 p) [trailerHigh (crc16 p), trailerLow (crc16 p)] := crcRun_append _ _ _ _
    _ = 0 := crcRun_trailer Config.crc16Poly (crc16 p)

end Sys2Proof.Machine

/-! A frame with the fixed bits of R71 is put together again from its own three fields (R71 to R74, R111), and its first
five bytes fix the index and the argument. -/

namespace Sys2Proof

open Machine

theorem commandByte_of_fields :
    ∀ b : Byte, b.extractLsb' 6 2 = 0b01 → commandByte (b.extractLsb' 0 6) = b := by
  decide

theorem crcField_of_fields : ∀ b : Byte, b.getLsbD 0 = true → crcField (b.extractLsb' 1 7) = b := by
  decide

/-- The bytes of an argument put together from four bytes are those bytes (R52): the converse of `word_of_bytes`. -/
theorem bytes_of_word (a b c d : Byte) :
    (a ++ b ++ c ++ d : Word).extractLsb' 24 8 = a ∧ (a ++ b ++ c ++ d : Word).extractLsb' 16 8 = b ∧
      (a ++ b ++ c ++ d : Word).extractLsb' 8 8 = c ∧ (a ++ b ++ c ++ d : Word).extractLsb' 0 8 = d := by
  refine ⟨?_, ?_, ?_, BitVec.extractLsb'_append_eq_right⟩
  · calc (a ++ b ++ c ++ d : Word).extractLsb' 24 8
      _ = (a ++ b ++ c).extractLsb' 16 8 := BitVec.extractLsb'_append_eq_of_le (by decide)
      _ = (a ++ b).extractLsb' 8 8 := BitVec.extractLsb'_append_eq_of_le (by decide)
      _ = a := BitVec.extractLsb'_append_eq_left
  · calc (a ++ b ++ c ++ d : Word).extractLsb' 16 8
      _ = (a ++ b ++ c).extractLsb' 8 8 := BitVec.extractLsb'_append_eq_of_le (by decide)
      _ = (a ++ b).extractLsb' 0 8 := BitVec.extractLsb'_append_eq_of_le (by decide)
      _ = b := BitVec.extractLsb'_append_eq_right
  · calc (a ++ b ++ c ++ d : Word).extractLsb' 8 8
      _ = (a ++ b ++ c).extractLsb' 0 8 := BitVec.extractLsb'_append_eq_of_le (by decide)
      _ = c := BitVec.extractLsb'_append_eq_right

section frame

variable {f g : Frame}

theorem assembleFrame_of_fields (h0 : f.b0.extractLsb' 6 2 = 0b01) (h5 : f.b5.getLsbD 0 = true) :
    assembleFrame f.commandId f.argument f.crc = f := by
  obtain ⟨h1, h2, h3, h4⟩ := bytes_of_word f.b1 f.b2 f.b3 f.b4
  simp only [assembleFrame, Frame.commandId, Frame.argument, Frame.crc, commandByte_of_fields _ h0,
    crcField_of_fields _ h5, h1, h2, h3, h4]

theorem frameCrc_of_fields (h0 : f.b0.extractLsb' 6 2 = 0b01) :
    frameCrc f.commandId f.argument = crc7 [f.b0, f.b1, f.b2, f.b3, f.b4] := by
  obtain ⟨h1, h2, h3, h4⟩ := bytes_of_word f.b1 f.b2 f.b3 f.b4
  simp only [frameCrc, Frame.commandId, Frame.argument, commandByte_of_fields _ h0, h1, h2, h3, h4]

theorem fields_eq_of_take_five (h : f.bytes.take 5 = g.bytes.take 5) :
    f.commandId = g.commandId ∧ f.argument = g.argument := by
  simp only [Frame.bytes, List.take, List.cons.injEq] at h
  obtain ⟨h0, h1, h2, h3, h4, -⟩ := h
  simp only [Frame.commandId, Frame.argument, h0, h1, h2, h3, h4, and_self]

end frame

section built

variable (id : BitVec 6) (arg : Word)

theorem buildFrame_commandId : (buildFrame id arg).commandId = id := assembleFrame_commandId ..

theorem buildFrame_argument : (buildFrame id arg).argument = arg := assembleFrame_argument ..

theorem buildFrame_valid :
    (buildFrame id arg).b0.extractLsb' 6 2 = 0b01 ∧ (buildFrame id arg).b5.getLsbD 0 = true ∧
      (buildFrame id arg).crc = crc7 [(buildFrame id arg).b0, (buildFrame id arg).b1, (buildFrame id arg).b2,
        (buildFrame id arg).b3, (buildFrame id arg).b4] :=
  ⟨(commandByte_fields id).2, (crcField_fields _).2, assembleFrame_crc ..⟩

end built

/-- Settles O2: the fields read back give injectivity, and a valid frame is FRAME's of its own index and argument. -/
theorem frameIsInvertible : Obligations.FrameIsInvertible := by
  refine ⟨fun id arg => ⟨rfl, (crcField_fields _).2, buildFrame_commandId id arg, buildFrame_argument id arg⟩,
    fun id id' arg arg' hne heq => hne ?_, fun f => ⟨?_, ?_⟩⟩
  · obtain ⟨hid, harg⟩ := fields_eq_of_take_five heq
    rw [buildFrame_commandId, buildFrame_commandId] at hid
    rw [buildFrame_argument, buildFrame_argument] at harg
    rw [hid, harg]
  · rintro ⟨h0, h5, hcrc⟩
    refine ⟨f.commandId, f.argument, ?_⟩
    rw [buildFrame, frameCrc_of_fields h0, ← hcrc, assembleFrame_of_fields h0 h5]
  · rintro ⟨id, arg, rfl⟩
    exact buildFrame_valid id arg

end Sys2Proof

/-! Runs of the response poll and of the busy wait over bytes the transport supplies (R120 to R127): idle bytes and busy
bytes are counted one by one up to their bound, and a response is collected from its first non-idle byte. -/

namespace Sys2Proof.Machine

theorem steps_snoc {n : Nat} {s t u : State} (h : steps n s = .next t) (h' : step t = .next u) :
    steps (n + 1) s = .next u :=
  (steps_append h).trans (steps_succ h')

/-- One transfer of FILL for each of `bytes`, with `rest` still to be received (R54, R55). -/
def State.receive (bytes rest : List Byte) (s : State) : State :=
  { s with rx := rest, trace := s.trace ++ bytes.map (.xfer 0xFF) }

section receive

variable {s : State} {rest : List Byte}

theorem receive_nil (hx : s.rx = rest) : s.receive [] rest = s := by
  subst hx
  simp [State.receive]

theorem receive_append (p q : List Byte) : s.receive (p ++ q) rest = (s.receive p (q ++ rest)).receive q rest := by
  simp [State.receive]

theorem xferAs_eq_receive {r : Byte} (hx : s.rx = r :: rest) : s.xferAs 0xFF r = s.receive [r] rest :=
  xferAs_listed 0xFF hx

theorem xfer_eq_receive {r : Byte} (hx : s.rx = r :: rest) : s.xfer 0xFF = s.receive [r] rest :=
  xfer_listed 0xFF hx

theorem collectByte_eq_receive {r : Byte} (hx : s.rx = r :: rest) :
    s.collectByte = (s.receive [r] rest).setReply (s.rbuf ++ [r]) (s.rleft - 1) := by
  rw [State.collectByte, Config.fill, xfer_eq_receive hx, rxByte_listed hx]

end receive

/-- An idle byte, if it comes next, is counted: in READRESP, and in the token read through the poller before its first
byte (R120, R148). -/
def State.polling (s : State) : Prop :=
  s.phase = .xPoll ∨ s.phase = .dToken ∧ s.params.drtViaPoller = true ∧ s.rbuf = []

section polls

variable {s : State} {reply rest : List Byte} {r st : Byte} {n bound : Nat} (hr : s.running = true)
include hr

/-! The poll's idle bytes (R120, R138). -/

theorem step_idleByte (hp : s.polling) (hx : s.rx = 0xFF :: rest) :
    step s = .next (s.receive [0xFF] rest).countIdle := by
  rw [← xferAs_eq_receive hx]
  obtain hp | ⟨hp, hv, hb⟩ := hp
  · exact step_pollIdle hr hp (rxByte_listed hx)
  · exact step_tokenIdle hr hp (by simp [State.tokenIdle, hv, hb, rxByte_listed hx, Config.idleByte])

theorem step_idleBelow (hp : s.polling) (hx : s.rx = 0xFF :: rest) (h : s.idleCnt + 1 < 8) :
    step s = .next (s.receive [0xFF] rest).bumpIdle :=
  (step_idleByte hr hp hx).trans (congrArg _ (countIdle_below (Nat.ne_of_lt h)))

theorem step_idleLast (hp : s.polling) (hcs : s.cs = true) (hx : s.rx = 0xFF :: rest) (h : s.idleCnt + 1 = 8) :
    step s = .next ((s.receive [0xFF] rest).bumpIdle.goto (.xReleaseErr .responseTimeout 0xFF)) :=
  (step_idleByte hr hp hx).trans (congrArg _ (countIdle_last h hcs))

theorem steps_idleBytes (hp : s.polling) (hx : s.rx = List.replicate n 0xFF ++ rest) (hn : s.idleCnt + n < 8) :
    steps n s = .next { s.receive (List.replicate n 0xFF) rest with idleCnt := s.idleCnt + n } := by
  induction n generalizing rest with
  | zero => exact congrArg _ (receive_nil hx).symm
  | succ n ih =>
    rw [List.replicate_succ', List.append_assoc] at hx
    refine steps_snoc (ih hx (by omega)) (Eq.trans (step_idleBelow hr hp rfl hn) ?_)
    rw [List.replicate_succ', receive_append]
    rfl

theorem steps_idleTimeout (hp : s.polling) (hcs : s.cs = true) (hx : s.rx = List.replicate (n + 1) 0xFF ++ rest)
    (hn : s.idleCnt + n + 1 = 8) :
    steps (n + 1) s = .next { s.receive (List.replicate (n + 1) 0xFF) rest with
      idleCnt := s.idleCnt + n + 1, phase := .xReleaseErr .responseTimeout 0xFF } := by
  rw [List.replicate_succ', List.append_assoc] at hx
  refine steps_snoc (steps_idleBytes hr hp hx (by omega)) (Eq.trans (step_idleLast hr hp hcs rfl hn) ?_)
  rw [List.replicate_succ', receive_append]
  rfl

/-! The response from its first non-idle byte (R120, R121, R139 to R141). -/

theorem step_collectMore (hp : s.phase = .xCollect) (hx : s.rx = r :: rest) (hl : 1 < s.rleft) :
    step s = .next ((s.receive [r] rest).setReply (s.rbuf ++ [r]) (s.rleft - 1)) := by
  rw [step_collect hr hp, collectStep, if_neg (Nat.not_le.mpr hl), collectByte_eq_receive hx]

theorem step_collectLast (hp : s.phase = .xCollect) (hx : s.rx = r :: rest) (hl : s.rleft = 1) :
    step s = .next (((s.receive [r] rest).setReply (s.rbuf ++ [r]) 0).responseDone (s.rbuf ++ [r])) := by
  rw [step_collect hr hp, collectStep, if_pos (Nat.le_of_eq hl), collectByte_eq_receive hx, rxByte_listed hx, hl]

theorem steps_collect (hp : s.phase = .xCollect) (hl : s.rleft = reply.length + 1) (hx : s.rx = r :: reply ++ rest) :
    steps (reply.length + 1) s = .next
      (((s.receive (r :: reply) rest).setReply (s.rbuf ++ r :: reply) 0).responseDone (s.rbuf ++ r :: reply)) := by
  induction reply generalizing s r with
  | nil => exact steps_succ (step_collectLast hr hp hx hl)
  | cons q reply ih =>
    have more : 1 < s.rleft := by simp [hl]
    rw [List.length_cons, steps_succ (step_collectMore hr hp hx more)]
    refine Eq.trans (ih hr hp (congrArg (· - 1) hl) rfl) ?_
    simp [State.setReply, State.receive]

theorem steps_response (hp : s.phase = .xPoll) (hst : st ≠ 0xFF) (hl : reply.length = s.xRlen.toNat)
    (hx : s.rx = st :: reply ++ rest) :
    steps (reply.length + 1) s =
      .next (((s.receive (st :: reply) rest).setReply (st :: reply) 0).responseDone (st :: reply)) := by
  have first : step s = .next (s.statusReceived st) := by
    rw [step_pollStatus hr hp (by rwa [rxByte_listed hx]), rxByte_listed hx]
  rw [steps_succ first, State.statusReceived, Config.fill, xferAs_eq_receive hx, ← hl]
  cases reply with
  | nil => rfl
  | cons q reply =>
    rw [List.length_cons, if_neg (Nat.succ_ne_zero _)]
    refine Eq.trans (steps_collect hr rfl rfl rfl) ?_
    simp [State.goto, State.setReply, State.receive, State.responseDone]

/-! The busy wait (R126, R127). -/

theorem step_busyByte (hp : s.phase = .dBusy) (hx : s.rx = 0x00 :: rest) :
    step s = .next (s.receive [0x00] rest).countBusy := by
  rw [step_busy hr hp (rxByte_listed hx), xferAs_eq_receive hx]

theorem step_busyUnbounded (hp : s.phase = .dBusy) (hb : s.params.busyBound = none) (hx : s.rx = 0x00 :: rest) :
    step s = .next (s.receive [0x00] rest) :=
  (step_busyByte hr hp hx).trans (congrArg _ (countBusy_unbounded hb))

theorem step_busyBelow (hp : s.phase = .dBusy) (hb : s.params.busyBound = some bound) (hx : s.rx = 0x00 :: rest)
    (h : s.busyCnt + 1 < bound) : step s = .next (s.receive [0x00] rest).bumpBusy :=
  (step_busyByte hr hp hx).trans (congrArg _ (countBusy_below hb (Nat.ne_of_lt h)))

theorem step_busyLast (hp : s.phase = .dBusy) (hcs : s.cs = true) (hb : s.params.busyBound = some (s.busyCnt + 1))
    (hx : s.rx = 0x00 :: rest) :
    step s = .next ((s.receive [0x00] rest).bumpBusy.goto (.xReleaseErr .cardUnresponsive 0x00)) :=
  (step_busyByte hr hp hx).trans (congrArg _ (countBusy_last hb rfl hcs))

theorem step_notBusy (hp : s.phase = .dBusy) (hx : s.rx = r :: rest) (h : r ≠ 0x00) :
    step s = .next ((s.receive [r] rest).goto .xRelease) := by
  rw [step_busyEnd hr hp (by rwa [rxByte_listed hx]), xfer_eq_receive hx]

theorem steps_busyUnbounded (hp : s.phase = .dBusy) (hb : s.params.busyBound = none)
    (hx : s.rx = List.replicate n 0x00 ++ rest) : steps n s = .next (s.receive (List.replicate n 0x00) rest) := by
  induction n generalizing rest with
  | zero => exact congrArg _ (receive_nil hx).symm
  | succ n ih =>
    rw [List.replicate_succ', List.append_assoc] at hx
    refine steps_snoc (ih hx) (Eq.trans (step_busyUnbounded hr hp hb rfl) ?_)
    rw [List.replicate_succ', receive_append]
    rfl

theorem steps_busyBelow (hp : s.phase = .dBusy) (hb : s.params.busyBound = some bound)
    (hx : s.rx = List.replicate n 0x00 ++ rest) (hn : s.busyCnt + n < bound) :
    steps n s = .next { s.receive (List.replicate n 0x00) rest with busyCnt := s.busyCnt + n } := by
  induction n generalizing rest with
  | zero => exact congrArg _ (receive_nil hx).symm
  | succ n ih =>
    rw [List.replicate_succ', List.append_assoc] at hx
    refine steps_snoc (ih hx (by omega)) (Eq.trans (step_busyBelow hr hp hb rfl hn) ?_)
    rw [List.replicate_succ', receive_append]
    rfl

theorem steps_busyLast (hp : s.phase = .dBusy) (hcs : s.cs = true)
    (hb : s.params.busyBound = some (s.busyCnt + n + 1)) (hx : s.rx = List.replicate (n + 1) 0x00 ++ rest) :
    steps (n + 1) s = .next { s.receive (List.replicate (n + 1) 0x00) rest with
      busyCnt := s.busyCnt + n + 1, phase := .xReleaseErr .cardUnresponsive 0x00 } := by
  rw [List.replicate_succ', List.append_assoc] at hx
  refine steps_snoc (steps_busyBelow hr hp hb hx (Nat.lt_succ_self _))
    (Eq.trans (step_busyLast hr hp hcs hb rfl) ?_)
  rw [List.replicate_succ', receive_append]
  rfl

end polls

/-- The data condition in R141's words. -/
theorem dataFollows_iff {st : Byte} {hasData : Bool} :
    dataFollows st hasData = true ↔ st &&& 0xFE = 0 ∧ hasData = true := by
  simp [dataFollows, errorOf_eq]

theorem responseDone_cons (s : State) (st : Byte) (reply : List Byte) :
    s.responseDone (st :: reply) = { s with
      status := st, payload := reply, error := decide (st &&& 0xFE ≠ 0),
      phase := if st &&& 0xFE = 0 ∧ s.xHasData = true then .dStart else .xRelease } := by
  simp [State.responseDone, errorOf_eq, dataFollows_iff]

/-- Settles O26: at most seven idle bytes leave the poll going, and the response follows; an eighth ends it. -/
theorem readResp : Obligations.ReadResp := by
  refine ⟨fun s i st reply rest hr hp hidle _ _ hi hst hl hx => ?_, fun s rest hr hp hidle _ hcs hx => ?_⟩
  · rw [List.append_assoc] at hx
    have idle := steps_idleBytes hr (.inl hp) hx (by omega)
    rw [Nat.add_assoc, Nat.add_comm 1]
    refine Eq.trans (steps_append idle) (Eq.trans (steps_response hr hp hst hl rfl) ?_)
    rw [responseDone_cons]
    simp [State.receive, State.setReply, hidle]
  · have timeout := steps_idleTimeout (n := 7) hr (.inl hp) hcs hx (by omega)
    simpa [State.receive, hidle] using timeout

/-- Settles O31: an unbounded wait counts nothing, so it only receives. -/
theorem unboundedBusyWait : Obligations.UnboundedBusyWait := by
  intro s n rest hr hp hb hx
  simpa [State.receive] using steps_busyUnbounded hr hp hb hx

/-- Settles O30: the busy bytes below the bound, then either the byte that ends the wait or the busy byte that reaches
the bound. -/
theorem busyWait : Obligations.BusyWait := by
  refine fun s b rest hr hp hcs hcnt => ⟨fun r hne hx hbelow => ?_, fun hx hpos hb => ?_⟩
  · cases hb : s.params.busyBound with
    | none =>
      refine steps_snoc (steps_busyUnbounded hr hp hb hx) (Eq.trans (step_notBusy hr hp rfl hne) ?_)
      simp [State.receive, State.goto, hcnt]
    | some n =>
      have below : s.busyCnt + b < n := by simpa [hcnt] using hbelow n hb
      refine steps_snoc (steps_busyBelow hr hp hb hx below) (Eq.trans (step_notBusy hr hp rfl hne) ?_)
      simp [State.receive, State.goto, hcnt]
  · obtain ⟨n, rfl⟩ := Nat.exists_eq_add_one_of_ne_zero hpos.ne'
    have last := steps_busyLast hr hp hcs (by simpa [hcnt] using hb) hx
    simpa [State.receive, hcnt] using last

end Sys2Proof.Machine

/-! The host's commands (R135 to R143, R153, R154): what a refusal and a return deliver, and what follows the exchange
of a host command. -/

namespace Sys2Proof.Machine

section commands

variable {s : State}

/-- The CRC7 register holds the CRC field of the frame that was built (R110). -/
theorem buildFrame_crc (id : BitVec 6) (arg : Word) : (buildFrame id arg).crc = frameCrc id arg :=
  assembleFrame_crc ..

theorem acceptCommand_invalid {op : HostOp} {q : Seq} {id : Byte} {arg rlen : Word} {data : Option (List Byte)}
    (h : commandValid s.params id rlen data ≠ true) : s.acceptCommand op q id arg rlen data = s.takeRequest.refuse :=
  if_neg h

theorem continueAfter_target (h : s.seq = .cmd ∨ s.seq = .acmdTarget) :
    s.continueAfter = s.deliverOk s.status s.payload := by
  obtain h | h := h <;> simp only [State.continueAfter, h]

theorem continueAfter_acmdPrefix (h : s.seq = .acmdPrefix) :
    s.continueAfter = if s.prefixRejected then s.deliverOk s.status [] else s.prepare .acmdTarget := by
  simp only [State.continueAfter, h]

theorem prefixRejected_iff :
    s.prefixRejected = true ↔ s.params.acmdCheckPrefix = true ∧ s.status &&& 0xFE ≠ 0 := by
  simp only [State.prefixRejected, Bool.and_eq_true, errorOf_eq, decide_eq_true_eq]

end commands

/-- Settles O21: each of the four conditions breaks one of the limits of `commandValid_iff`, so either request is the
same refusal. -/
theorem hostCommandRefused : Obligations.HostCommandRefused := by
  intro s id arg rlen data i hi hbad
  have invalid : commandValid s.params id rlen data ≠ true := by
    intro hv
    obtain ⟨hid, hreply, hdata⟩ := commandValid_iff.mp hv
    obtain hbad | ⟨c, hc, hbad⟩ | hbad | ⟨d, c, hd, hc, hbad⟩ := hbad
    · exact absurd hid (Nat.not_le.mpr hbad)
    · exact absurd (hreply c hc) (Nat.not_le.mpr hbad)
    · exact absurd rfl (hdata [] hbad).1
    · exact absurd ((hdata d hd).2 c hc) (Nat.not_le.mpr hbad)
  refine ⟨s.takeRequest.refuse, ?_, rfl, rfl⟩
  obtain rfl | rfl := hi <;> exact congrArg _ (acceptCommand_invalid invalid)

/-- Settles O34: the release is followed by the normal return with STATUS and the payload. -/
theorem commandReturns : Obligations.CommandReturns := by
  intro s hr hp hq
  have ends : releaseStep s = (s.setCS false).deliverOk s.status s.payload :=
    continueAfter_target (s := s.setCS false) hq
  exact ⟨_, (step_release hr hp).trans (congrArg _ ends), rfl, rfl, rfl, rfl⟩

/-- Settles O35: the release is followed by the target's frame, or by the normal return, as `prefixRejected` says. -/
theorem acmdPrefixDiscarded : Obligations.AcmdPrefixDiscarded := by
  intro s hr hp hq
  have follows : step s = .next (if s.prefixRejected then (s.setCS false).deliverOk s.status []
      else (s.setCS false).prepare .acmdTarget) :=
    (step_release hr hp).trans (congrArg _ (continueAfter_acmdPrefix (s := s.setCS false) hq))
  refine ⟨fun h => ?_, fun hcheck herr => ?_⟩
  · have kept : ¬ s.prefixRejected = true := by
      rw [prefixRejected_iff]
      rintro ⟨hcheck, herr⟩
      obtain hoff | hok := h
      · simp [hoff] at hcheck
      · exact herr hok
    rw [follows, if_neg kept, buildFrame_crc]
    rfl
  · rw [if_pos (prefixRejected_iff.mpr ⟨hcheck, herr⟩)] at follows
    exact ⟨_, follows, rfl, rfl, rfl, rfl⟩

end Sys2Proof.Machine

/-! An exchange with no response (R135, R138): the frame's six transfers, the eight idle bytes of the poll, and the
error's release of chip-select. -/

namespace Sys2Proof.Machine

/-- One transfer for each of `sent`, in which the byte of `got` at the same place was received, with `rest` still to be
received (R10, R55). -/
def State.transfer (sent got rest : List Byte) (s : State) : State :=
  { s with rx := rest, trace := s.trace ++ List.zipWith .xfer sent got }

section transfer

variable {s : State} {rest : List Byte}

theorem xfer_eq_transfer {r : Byte} (t : Byte) (hx : s.rx = r :: rest) : s.xfer t = s.transfer [t] [r] rest :=
  xfer_listed t hx

theorem transfer_cons (p : Phase) (t r : Byte) (sent got rest' : List Byte) :
    ((s.transfer [t] [r] rest').goto p).transfer sent got rest = (s.transfer (t :: sent) (r :: got) rest).goto p := by
  simp [State.transfer, State.goto]

theorem transfer_one_received (t r : Byte) (sent : List Byte) :
    s.transfer (t :: sent) [r] rest = s.transfer [t] [r] rest := by
  simp [State.transfer]

end transfer

/-- The exchange that begins at `s`, its frame sent and its poll begun; `got` was received with the frame (R135). -/
def State.frameSent (got rest : List Byte) (s : State) : State :=
  ((s.beginExchange s.frameBuf (exchangeRlen s.seq s.reqRlen) (exchangeHasData s.seq s.reqHasData)).transfer
    s.frameBuf.bytes got rest).beginPoll .xPoll

/-- Where the eighth idle byte of its poll leaves that exchange: the timeout is raised, and chip-select still asserted
(R138). -/
def State.timedOut (got rest : List Byte) (s : State) : State :=
  { (s.frameSent got (List.replicate 8 0xFF ++ rest)).receive (List.replicate 8 0xFF) rest with
    idleCnt := 8
    phase := .xReleaseErr .responseTimeout 0xFF }

/-- The frame's bytes from index `i` on begin with its byte `i` (R71). -/
theorem frame_bytes_drop (f : Frame) (i : Fin 6) :
    f.bytes.drop i.val = frameByte f i :: f.bytes.drop (i.val + 1) := by
  fin_cases i <;> rfl

section silent

variable {s : State} {got rest : List Byte} {r : Byte} (hr : s.running = true)
include hr

theorem step_transmitMore {i : Fin 6} (hp : s.phase = .xTx i) (hx : s.rx = r :: rest) (hi : i.val + 1 < 6) :
    step s = .next ((s.transfer [frameByte s.frameBuf i] [r] rest).goto (.xTx ⟨i.val + 1, hi⟩)) := by
  rw [step_transmit hr hp, txStep, dif_pos hi, xfer_eq_transfer _ hx]

theorem step_transmitLast {i : Fin 6} (hp : s.phase = .xTx i) (hx : s.rx = r :: rest) (hi : i.val = 5) :
    step s = .next ((s.transfer [frameByte s.frameBuf i] [r] rest).beginPoll .xPoll) := by
  rw [step_transmit hr hp, txStep, dif_neg (by omega), xfer_eq_transfer _ hx]

/-- From frame byte `i` on, each byte left is one transfer (R135, R59). -/
theorem steps_transmit {i : Fin 6} (hp : s.phase = .xTx i) (hi : i.val + got.length = 5)
    (hx : s.rx = r :: got ++ rest) :
    steps (got.length + 1) s =
      .next ((s.transfer (s.frameBuf.bytes.drop i.val) (r :: got) rest).beginPoll .xPoll) := by
  rw [frame_bytes_drop]
  induction got generalizing s r i with
  | nil =>
    rw [transfer_one_received]
    exact steps_succ (step_transmitLast hr hp hx hi)
  | cons q got ih =>
    rw [List.length_cons] at hi
    have more : i.val + 1 < 6 := by omega
    have left : i.val + 1 + got.length = 5 := by omega
    have tail := ih
      (s := (s.transfer [frameByte s.frameBuf i] [r] (q :: got ++ rest)).goto (.xTx ⟨i.val + 1, more⟩)) hr rfl left rfl
    rw [transfer_cons, ← frame_bytes_drop] at tail
    exact (steps_succ (step_transmitMore hr hp hx more)).trans tail

theorem steps_frame (hp : s.phase = .xTx 0) (hl : got.length = 6) (hx : s.rx = got ++ rest) :
    steps 6 s = .next ((s.transfer s.frameBuf.bytes got rest).beginPoll .xPoll) := by
  cases got with
  | nil => cases hl
  | cons r got =>
    have six := steps_transmit hr hp (by simpa using hl) hx
    rwa [← List.length_cons, hl] at six

theorem steps_frameSent (hp : s.phase = .xAssert)
    (hf : s.frameBuf = buildFrame (exchangeId s.seq s.reqId) (exchangeArg s.seq s.reqArg s.params s.dbuf))
    (hl : got.length = 6) (hx : s.rx = got ++ rest) : steps 7 s = .next (s.frameSent got rest) := by
  refine (steps_succ (step_issue hr hp hf)).trans ?_
  exact steps_frame (s := s.beginExchange s.frameBuf _ _) hr rfl hl hx

theorem steps_timedOut (hp : s.phase = .xAssert)
    (hf : s.frameBuf = buildFrame (exchangeId s.seq s.reqId) (exchangeArg s.seq s.reqArg s.params s.dbuf))
    (hl : got.length = 6) (hx : s.rx = got ++ List.replicate 8 0xFF ++ rest) :
    steps 15 s = .next (s.timedOut got rest) := by
  rw [List.append_assoc] at hx
  refine (steps_append (n := 8) (steps_frameSent hr hp hf hl hx)).trans ?_
  exact steps_idleTimeout (s := s.frameSent got _) (n := 7) hr (.inl rfl) rfl rfl rfl

end silent

/-- What the release after an error writes inside INIT (R171, R208). -/
theorem releaseErrStep_init {s : State} (k : Kind) (info : Byte) (h : s.reqOp = .init) :
    releaseErrStep k info s = { s with
      cs := false, trace := s.trace ++ [.cs false], initState := .failed, failKind := k, failInfo := info,
      result := ⟨k, Config.freeByte s.fresh, info, []⟩, resultDelivered := true, phase := .idle,
      fresh := s.fresh + 1 } := by
  rw [releaseErrStep, State.endWithError, recordInitFailure_init (s := s.setCS false) k info h]
  rfl

/-- What the release after an error writes in the other operations (R208). -/
theorem releaseErrStep_other {s : State} (k : Kind) (info : Byte) (h : s.reqOp ≠ .init) :
    releaseErrStep k info s = { s with
      cs := false, trace := s.trace ++ [.cs false], result := ⟨k, Config.freeByte s.fresh, info, []⟩,
      resultDelivered := true, phase := .idle, fresh := s.fresh + 1 } := by
  rw [releaseErrStep, State.endWithError, recordInitFailure_other (s := s.setCS false) k info h]
  rfl

/-- OCR_POST holds nothing while INIT runs: no exchange of INIT has INIT_STATE S_READY (R160, R169). -/
theorem State.Inv.ocrPost_init {s : State} (hI : s.Inv) (hp : s.phase ≠ .idle) (ho : s.reqOp = .init) :
    s.ocrPost = none := by
  have hseq := hI.initSeq hp ho
  refine hI.ocrReady.2 fun hready => ?_
  rw [hready] at hseq
  cases hq : s.seq <;> simp [hq, Seq.initState] at hseq

/-- Settles O27: the sixteenth step is the release after the timeout, inside INIT with the failure record. -/
theorem responseTimeoutEndsTheOperation : Obligations.ResponseTimeoutEndsTheOperation := by
  intro s got rest hI hr hp hl hx
  have silent : steps 15 s = .next (s.timedOut got rest) := steps_timedOut hr hp (hI.frame (by rw [hp]; rfl)) hl hx
  have ends : steps 16 s = .next (releaseErrStep .responseTimeout 0xFF (s.timedOut got rest)) :=
    steps_snoc silent (step_releaseErr (s := s.timedOut got rest) hr rfl)
  by_cases ho : s.reqOp = .init
  · have hpost : s.ocrPost = none := hI.ocrPost_init (by simp [hp]) ho
    rw [releaseErrStep_init (s := s.timedOut got rest) _ _ ho] at ends
    exact ⟨_, ends, rfl, rfl, rfl, rfl, rfl, rfl, rfl, rfl, rfl, fun _ => ⟨rfl, rfl, rfl, rfl, hpost⟩,
      fun hne => absurd ho hne⟩
  · rw [releaseErrStep_other (s := s.timedOut got rest) _ _ ho] at ends
    exact ⟨_, ends, rfl, rfl, rfl, rfl, rfl, rfl, rfl, rfl, rfl, fun h => absurd h ho,
      fun _ => ⟨rfl, rfl, rfl, rfl, rfl⟩⟩

end Sys2Proof.Machine

/-! INIT's own decisions after its exchanges (R162, R165, R168): the next frame, or the failure record. -/

namespace Sys2Proof.Machine

section initSequence

variable {s : State}

/-- An exchange is prepared with the frame FRAME builds for it, whose CRC field is in the CRC7 register (R110). -/
theorem prepare_of_frame {q : Seq} {f : Frame}
    (hf : buildFrame (exchangeId q s.reqId) (exchangeArg q s.reqArg s.params s.dbuf) = f) :
    s.prepare q = { s with frameBuf := f, crc7 := f.crc, seq := q, phase := .xAssert } := by
  subst hf
  rw [buildFrame_crc]
  rfl

/-- A step that raises an error inside INIT, chip-select released, delivers the error and writes the failure record,
and nothing else (R171, R208). -/
theorem step_raise_init {u : State} {k : Kind} {info : Byte} (h : step s = .next (u.raise k info)) (hc : u.cs = false)
    (ho : u.reqOp = .init) :
    ∃ t, step s = .next t ∧ t.result.kind = k ∧ t.result.info = info ∧
      t = { u with initState := .failed, failKind := k, failInfo := info, result := t.result, resultDelivered := true,
                   phase := .idle, fresh := t.fresh } := by
  rw [raise_released k info hc, State.endWithError, recordInitFailure_init k info ho] at h
  exact ⟨_, h, rfl, rfl, rfl⟩

theorem continueAfter_initCmd0 (h : s.seq = .initCmd0) : s.continueAfter = s.afterCmd0 := by
  simp only [State.continueAfter, h]

theorem continueAfter_initCmd8 (h : s.seq = .initCmd8) : s.continueAfter = s.afterCmd8 := by
  simp only [State.continueAfter, h]

theorem continueAfter_initAcmd41 (h : s.seq = .initAcmd41) : s.continueAfter = s.afterAcmd41 := by
  simp only [State.continueAfter, h]

theorem afterCmd0_succeeded (h : s.status = 0x01) :
    s.afterCmd0 = ((s.setRetry (s.retryCnt + 1)).setInit .ifCheck).prepare .initCmd8 :=
  if_pos (beq_iff_eq.mpr h)

theorem afterCmd0_again (h : s.status ≠ 0x01) (hn : s.retryCnt + 1 ≠ Config.cmd0Retries) :
    s.afterCmd0 = (s.setRetry (s.retryCnt + 1)).prepare .initCmd0 :=
  (if_neg (mt beq_iff_eq.mp h)).trans (if_neg hn)

theorem afterCmd0_last (h : s.status ≠ 0x01) (hn : s.retryCnt + 1 = Config.cmd0Retries) :
    s.afterCmd0 = (s.setRetry Config.cmd0Retries).raise .cardInitError s.status :=
  hn ▸ (if_neg (mt beq_iff_eq.mp h)).trans (if_pos hn)

theorem afterCmd8_echoed (h : s.payload = Config.cmd8Echo) :
    s.afterCmd8 = (s.setInit .ocrPoll).prepare .initCmd58Pre :=
  if_pos h

theorem afterCmd8_mismatched (h : s.payload ≠ Config.cmd8Echo) :
    s.afterCmd8 = s.raise .unsupportedCard s.status :=
  if_neg h

theorem afterAcmd41_ready (h : s.status &&& 0x01 = 0) :
    s.afterAcmd41 = (s.setRetry (s.retryCnt + 1)).prepare .initCmd58Post :=
  if_pos (beq_iff_eq.mpr h)

theorem afterAcmd41_again (h : s.status &&& 0x01 ≠ 0) (hn : s.retryCnt + 1 ≠ Config.acmd41Retries) :
    s.afterAcmd41 = (s.setRetry (s.retryCnt + 1)).prepare .initCmd55 :=
  (if_neg (mt beq_iff_eq.mp h)).trans (if_neg hn)

theorem afterAcmd41_last (h : s.status &&& 0x01 ≠ 0) (hn : s.retryCnt + 1 = Config.acmd41Retries) :
    s.afterAcmd41 = (s.setRetry Config.acmd41Retries).raise .cardInitError s.status :=
  hn ▸ (if_neg (mt beq_iff_eq.mp h)).trans (if_pos hn)

/-- The step at X_RELEASE is the release, then what follows the exchange (R30). -/
theorem step_releaseTo {t : State} (hr : s.running = true) (hp : s.phase = .xRelease)
    (h : (s.setCS false).continueAfter = t) : step s = .next t :=
  (step_release hr hp).trans (congrArg _ h)

end initSequence

/-- Settles O36: `afterCmd0` prepares CMD8's frame, prepares CMD0's again, or raises CardInitError. -/
theorem initResetLoop : Obligations.InitResetLoop := by
  intro s hr hp hq ho
  have follows : step s = .next (s.setCS false).afterCmd0 := step_releaseTo hr hp (continueAfter_initCmd0 hq)
  obtain ⟨cmd0, -⟩ := fixed_frames
  refine ⟨fun h => ?_, fun h hn => ?_, fun h hn => ?_⟩
  · rw [follows, afterCmd0_succeeded (s := s.setCS false) h, prepare_of_frame rfl]
    rfl
  · rw [follows, afterCmd0_again (s := s.setCS false) h hn, prepare_of_frame (q := .initCmd0) cmd0, hq]
    rfl
  · rw [afterCmd0_last (s := s.setCS false) h hn] at follows
    exact step_raise_init follows rfl ho

/-- Settles O37: `afterCmd8` prepares CMD58's frame, or raises UnsupportedCard, by the payload alone. -/
theorem initInterfaceCheck : Obligations.InitInterfaceCheck := by
  intro s hr hp hq ho
  have follows : step s = .next (s.setCS false).afterCmd8 := step_releaseTo hr hp (continueAfter_initCmd8 hq)
  obtain ⟨-, -, -, -, cmd58⟩ := fixed_frames
  refine ⟨fun h => ?_, fun h => ?_⟩
  · rw [follows, afterCmd8_echoed (s := s.setCS false) h, prepare_of_frame (q := .initCmd58Pre) cmd58]
    rfl
  · rw [afterCmd8_mismatched (s := s.setCS false) h] at follows
    exact step_raise_init follows rfl ho

/-- Settles O39: `afterAcmd41` prepares the final CMD58's frame, prepares CMD55's again, or raises CardInitError. -/
theorem initOcrPollLoop : Obligations.InitOcrPollLoop := by
  intro s hr hp hq ho
  have follows : step s = .next (s.setCS false).afterAcmd41 := step_releaseTo hr hp (continueAfter_initAcmd41 hq)
  obtain ⟨-, -, -, cmd55, cmd58⟩ := fixed_frames
  refine ⟨fun h => ?_, fun h hn => ?_, fun h hn => ?_⟩
  · rw [follows, afterAcmd41_ready (s := s.setCS false) h, prepare_of_frame (q := .initCmd58Post) cmd58]
    rfl
  · rw [follows, afterAcmd41_again (s := s.setCS false) h hn, prepare_of_frame (q := .initCmd55) cmd55]
    rfl
  · rw [afterAcmd41_last (s := s.setCS false) h hn] at follows
    exact step_raise_init follows rfl ho

end Sys2Proof.Machine

/-! The LOCKUNLOCK request and the check of its CMD16 (R180 to R185): refused or latched as R182's limits say; and after
CMD16 the operation ends with an error status, or goes on to CMD42. -/

namespace Sys2Proof.Machine

/-- Five to seven name no lock operation (R83). -/
theorem ofCode_outside : ∀ c : BitVec 3, 4 < c.toNat → LockOp.ofCode c = none := by
  decide

theorem ofCode_code (op : LockOp) : LockOp.ofCode op.code = some op := by
  cases op <;> rfl

section lockUnlock

variable {s : State} {old new : List Byte}

theorem hostLockunlock_unnamed {c : BitVec 3} (h : LockOp.ofCode c = none) :
    exec (.hostLockunlock c old new) s = .next s.takeRequest.refuse := by
  simp only [exec, execHostLockunlock, h]

theorem hostLockunlock_named (op : LockOp) :
    exec (.hostLockunlock op.code old new) s =
      if passwordsValid s.params old new then .next ((s.takeRequest.latchLock op old new).prepare .lockCmd16)
      else .next s.takeRequest.refuse := by
  simp only [exec, execHostLockunlock, ofCode_code]

/-- Passwords beyond the limits are refused whatever the operation code, named or not (R182). -/
theorem hostLockunlock_invalid (c : BitVec 3) (h : passwordsValid s.params old new ≠ true) :
    exec (.hostLockunlock c old new) s = .next s.takeRequest.refuse := by
  cases hc : LockOp.ofCode c with
  | none => exact hostLockunlock_unnamed hc
  | some op => simp only [exec, execHostLockunlock, hc, if_neg h]

/-- DBUF_CAP >= 257 (R27), so the two bytes before empty passwords fit. -/
theorem passwordsValid_empty {p : Config.Params} (h : p.wf = true) : passwordsValid p [] [] = true := by
  obtain ⟨-, hcap⟩ := Bool.and_eq_true_iff.mp h
  refine passwordsValid_iff.mpr ⟨by decide, fun c hc => ?_⟩
  have : 257 ≤ c := by simpa [hc] using hcap
  simp only [List.length_nil]
  omega

theorem continueAfter_lockCmd16_rejected (h : s.seq = .lockCmd16) (herr : s.status &&& 0xFE ≠ 0) :
    s.continueAfter = s.deliverOk s.status [] := by
  simp only [State.continueAfter, h, errorOf_eq, decide_eq_true herr, if_true]

theorem continueAfter_lockCmd16_passed (h : s.seq = .lockCmd16) (hok : s.status &&& 0xFE = 0) :
    s.continueAfter = s.prepare .lockCmd42 := by
  simp only [State.continueAfter, h, errorOf_eq, decide_eq_false (not_not.mpr hok), Bool.false_eq_true, if_false]

end lockUnlock

/-- Settles O24: each of the three conditions leaves the code unnamed or the passwords invalid; and empty passwords are
valid, so a named operation with them is latched. -/
theorem hostLockunlockRefused : Obligations.HostLockunlockRefused := by
  refine ⟨fun s c old new hbad => ⟨s.takeRequest.refuse, ?_, rfl, rfl⟩, fun s op hwf =>
    ⟨(s.takeRequest.latchLock op [] []).prepare .lockCmd16, ?_, rfl, rfl⟩⟩
  · obtain hcode | hbad := hbad
    · exact hostLockunlock_unnamed (ofCode_outside c hcode)
    · refine hostLockunlock_invalid c fun hv => ?_
      obtain ⟨htotal, hblock⟩ := passwordsValid_iff.mp hv
      obtain hbad | ⟨cap, hcap, hbad⟩ := hbad
      · exact absurd htotal (Nat.not_le.mpr hbad)
      · exact absurd (hblock cap hcap) (Nat.not_le.mpr hbad)
  · exact (hostLockunlock_named op).trans (if_pos (passwordsValid_empty hwf))

/-- Settles O41: the release is followed by the normal return with CMD16's status, or by CMD42's frame. -/
theorem lockBlockLengthCheck : Obligations.LockBlockLengthCheck := by
  intro s hr hp hq
  refine ⟨fun herr => ?_, fun hok => ?_⟩
  · have ends := step_releaseTo hr hp (continueAfter_lockCmd16_rejected (s := s.setCS false) hq herr)
    exact ⟨_, ends, rfl, rfl, rfl, rfl⟩
  · obtain ⟨-, -, cmd42, -⟩ := fixed_frames
    rw [step_releaseTo hr hp (continueAfter_lockCmd16_passed (s := s.setCS false) hq hok),
      prepare_of_frame (q := .lockCmd42) cmd42]
    rfl

end Sys2Proof.Machine

/-! Taking an error with chip-select released, as a whole next state (R208 (2) to (4)). -/

namespace Sys2Proof.Machine

theorem endWithError_init {s : State} (k : Kind) (info : Byte) (h : s.reqOp = .init) :
    s.endWithError k info = { s with
      initState := .failed, failKind := k, failInfo := info, result := (s.endWithError k info).result,
      resultDelivered := true, phase := .idle, fresh := (s.endWithError k info).fresh } := by
  simp only [State.endWithError, recordInitFailure_init k info h]
  rfl

theorem endWithError_other {s : State} (k : Kind) (info : Byte) (h : s.reqOp ≠ .init) :
    s.endWithError k info = { s with
      result := (s.endWithError k info).result, resultDelivered := true, phase := .idle,
      fresh := (s.endWithError k info).fresh } := by
  simp only [State.endWithError, recordInitFailure_other k info h]
  rfl

/-- Settles O43: with chip-select asserted the raise goes to X_RELEASE_ERR, whose step raises again with chip-select
released; there the raise is the end of the operation, which only INIT records. -/
theorem errorEntry : Obligations.ErrorEntry := by
  refine ⟨fun s k info hc => raise_selected k info hc, fun s k info hr hp => ?_, fun s k info hc => ?_⟩
  · rw [step_releaseErr hr hp, releaseErrStep, ← raise_released (s := s.setCS false) k info rfl]
    rfl
  · rw [raise_released k info hc]
    exact ⟨rfl, rfl, endWithError_init k info, endWithError_other k info⟩

end Sys2Proof.Machine

/-! The decoder and the encoder undo each other (R71, R77 to R81, R88, R92, R96). -/

namespace Sys2Proof

open Machine

section frame

variable {f : Frame} (h : f.isCommand = true)
include h

theorem decodeFrame_generic : decodeFrame false f = .ok f.generic := if_pos h

theorem decodeFrame_own : decodeFrame true f = .ok f.own := if_pos h

theorem assembleFrame_of_isCommand : assembleFrame f.commandId f.argument f.crc = f := by
  obtain ⟨start, stop⟩ := Bool.and_eq_true_iff.mp h
  exact assembleFrame_of_fields (beq_iff_eq.mp start) stop

/-- A row with a fixed index and its argument and CRC as operands is written back from the frame's fields. -/
theorem assembleFrame_of_index {id : BitVec 6} (hid : f.commandId.toNat = id.toNat) :
    assembleFrame id f.argument f.crc = f := by
  rw [← BitVec.eq_of_toNat_eq hid, assembleFrame_of_isCommand h]

theorem encode_generic : encode f.generic = .frame f := congrArg _ (assembleFrame_of_isCommand h)

theorem encode_own : encode f.own = .frame f := by
  unfold Frame.own
  split
  case h_2 hid =>
    split
    · rename_i hb4
      have arg : (f.b1 ++ f.b2 ++ f.b3 ++ (0x1A : Byte) : Word) = f.argument := by rw [← hb4]; rfl
      rw [encode, arg, assembleFrame_of_index (id := 8) h hid]
    · exact encode_generic h
  case h_4 hid => exact congrArg _ (assembleFrame_of_index (id := 16) h hid)
  case h_5 hid => exact congrArg _ (assembleFrame_of_index (id := 41) h hid)
  case h_9 => exact encode_generic h
  all_goals
    split
    · rename_i hf
      exact congrArg _ hf.symm
    · exact encode_generic h

end frame

/-- CMD41 and CMD16 have no fixed argument, so every frame with their index is theirs (R167, R184). -/
theorem own_acmd41 (arg : Word) (k : BitVec 7) : (assembleFrame 41 arg k).own = .acmd41 arg k := by
  simp [Frame.own]

theorem own_cmd16 (arg : Word) (k : BitVec 7) : (assembleFrame 16 arg k).own = .cmd16 arg k := by
  simp [Frame.own]

/-- The accept pattern leaves bits 7:5 open, and they are the row's operand (R78). -/
theorem decodeToken_accept : ∀ u : BitVec 3, decodeToken (u ++ (0b00101 : BitVec 5)) = .ok (.drtAccept u) := by
  decide

/-- Settles O5, row by row: a frame by its fields, a token by its open bits, a status because it is not the idle byte;
the words with no operand are evaluated, and a request holds its operands as they are. -/
theorem decodeEncode : Obligations.DecodeEncode := by
  intro i hwf
  cases i with
  | cmd id arg k =>
    exact (decodeFrame_generic (assembleFrame_isCommand ..)).trans (congrArg _ (assembleFrame_generic id arg k))
  | cmd8 hi k => exact (decodeFrame_own (assembleFrame_isCommand ..)).trans (congrArg _ (own_cmd8 hi k))
  | acmd41 arg k => exact (decodeFrame_own (assembleFrame_isCommand ..)).trans (congrArg _ (own_acmd41 arg k))
  | cmd16 arg k => exact (decodeFrame_own (assembleFrame_isCommand ..)).trans (congrArg _ (own_cmd16 arg k))
  | cmd0 | cmd58 | cmd55 | cmd42 | acmd13 => decide
  | drtAccept u => exact decodeToken_accept u
  | status b => exact congrArg _ (if_neg (bne_iff_ne.mp hwf))
  | startToken | idleByte | busyByte | opUnlock | opSetpassword | opClearpassword | opLocknow | opForceerase => decide
  | hostCmd | hostAcmd | hostInit | hostLockunlock => rfl

/-- Settles O6: a frame that decodes has the fixed bits of a command frame, and either slot's row is written back. -/
theorem encodeDecodeFrame : Obligations.EncodeDecodeFrame := by
  intro own f i hd
  cases hc : f.isCommand with
  | false => simp [decodeFrame, hc] at hd
  | true =>
    cases own with
    | false =>
      rw [decodeFrame_generic hc] at hd
      exact Except.ok.inj hd ▸ encode_generic hc
    | true =>
      rw [decodeFrame_own hc] at hd
      exact Except.ok.inj hd ▸ encode_own hc

/-- Settles O7: each word is evaluated in the slot `tableSlot` reads it in. -/
theorem decodedWords : Obligations.DecodedWords := by
  unfold Obligations.DecodedWords
  decide

end Sys2Proof

/-! What a step does to an operation, said once for a state whose chip-select level is its phase's (R22, R142): a step
inside an exchange leaves everything the operation has latched, a release continues the operation in one of the ways
of `Follows`, and only an event that the level allows is made. -/

namespace Sys2Proof.Machine

/-- The chip-select level is the phase's, and the trace is well bracketed up to it (R142, D33). -/
def State.Bracketed (s : State) : Prop := s.cs = s.phase.selected ∧ replayCS s.trace false = some s.cs

/-- What a step inside an exchange holds: every register but PHASE, the registers of the poll, the response and the
data write, the transport's input, and the trace. -/
def State.held (s : State) : State :=
  { s with
    phase := .idle, crc16 := 0, idleCnt := 0, busyCnt := 0, status := 0, error := false, token := 0, rbuf := [],
    rleft := 0, dptr := 0, payload := [], rx := [], trace := [], fresh := 0 }

section held

variable (s : State)

@[simp] theorem State.xferAs_held (t r : Byte) : (s.xferAs t r).held = s.held := rfl
@[simp] theorem State.xfer_held (t : Byte) : (s.xfer t).held = s.held := rfl
@[simp] theorem State.goto_held (p : Phase) : (s.goto p).held = s.held := rfl
@[simp] theorem State.setDptr_held (n : Nat) : (s.setDptr n).held = s.held := rfl
@[simp] theorem State.setToken_held (t : Byte) : (s.setToken t).held = s.held := rfl
@[simp] theorem State.setReply_held (l : List Byte) (n : Nat) : (s.setReply l n).held = s.held := rfl
@[simp] theorem State.bumpIdle_held : s.bumpIdle.held = s.held := rfl
@[simp] theorem State.bumpBusy_held : s.bumpBusy.held = s.held := rfl
@[simp] theorem State.beginPoll_held (p : Phase) : (s.beginPoll p).held = s.held := rfl
@[simp] theorem State.responseDone_held (l : List Byte) : (s.responseDone l).held = s.held := rfl
@[simp] theorem State.collectByte_held : s.collectByte.held = s.held := by simp [State.collectByte]
@[simp] theorem State.beginTrailer_held : s.beginTrailer.held = s.held := rfl
@[simp] theorem State.beginBusy_held : s.beginBusy.held = s.held := rfl

@[simp] theorem State.afterPayloadByte_held : s.afterPayloadByte.held = s.held := by
  unfold State.afterPayloadByte
  split <;> rfl

end held

/-- The exchange goes on: what `held` holds is as it was, chip-select stays asserted, and the step is one transfer, or
none where the transport does not complete it (R31). -/
structure State.Exchanges (s t : State) : Prop where
  held : t.held = s.held
  selected : t.phase.selected = true
  trace : t.trace = s.trace ∨ ∃ a b, t.trace = s.trace ++ [.xfer a b]

/-- How an operation goes on after an exchange that ended normally, chip-select released (R30). -/
inductive Follows (s : State) : State → Prop where
  | reply (h : s.seq = .cmd ∨ s.seq = .acmdTarget) : Follows s (s.deliverOk s.status s.payload)
  | status (h : s.seq.op ≠ .init) (hc : s.seq ≠ .cmd) (ht : s.seq ≠ .acmdTarget) : Follows s (s.deliverOk s.status [])
  | next (q : Seq) (h : (s.seq, q) ∈ [(Seq.acmdPrefix, Seq.acmdTarget), (.initCmd55, .initAcmd41),
      (.lockCmd16, .lockCmd42), (.lockCmd42, .lockCmd55), (.lockCmd55, .lockAcmd13)]) : Follows s (s.prepare q)
  | cmd0Succeeded (h : s.seq = .initCmd0) :
      Follows s (((s.setRetry (s.retryCnt + 1)).setInit .ifCheck).prepare .initCmd8)
  | cmd0Again (h : s.seq = .initCmd0) (hn : s.retryCnt + 1 ≠ Config.cmd0Retries) :
      Follows s ((s.setRetry (s.retryCnt + 1)).prepare .initCmd0)
  | echoed (h : s.seq = .initCmd8) : Follows s ((s.setInit .ocrPoll).prepare .initCmd58Pre)
  | ocrPre (h : s.seq = .initCmd58Pre) : Follows s (((s.captureOcrPre s.payload).setRetry 0).prepare .initCmd55)
  | ready (h : s.seq = .initCmd55 ∨ s.seq = .initAcmd41) :
      Follows s ((s.setRetry (s.retryCnt + 1)).prepare .initCmd58Post)
  | acmd41Again (h : s.seq = .initCmd55 ∨ s.seq = .initAcmd41) (hn : s.retryCnt + 1 ≠ Config.acmd41Retries) :
      Follows s ((s.setRetry (s.retryCnt + 1)).prepare .initCmd55)
  | failed (h : s.seq.op = .init) (k : Kind) (n : Nat) (hk : k = .cardInitError ∨ k = .unsupportedCard)
      (hn : n ≤ Config.acmd41Retries ∨ n = s.retryCnt) : Follows s ((s.setRetry n).endWithError k s.status)
  | ocrPost (h : s.seq = .initCmd58Post) :
      Follows s (((s.captureOcrPost s.payload).setInit .ready).deliverInitOk)

section follows

variable {s : State} (hc : s.cs = false)
include hc

theorem follows_afterCmd0 (h : s.seq = .initCmd0) : Follows s s.afterCmd0 := by
  by_cases hs : s.status = 0x01
  · exact afterCmd0_succeeded hs ▸ .cmd0Succeeded h
  · by_cases hn : s.retryCnt + 1 = Config.cmd0Retries
    · rw [afterCmd0_last hs hn, raise_released (s := s.setRetry Config.cmd0Retries) _ _ hc]
      exact .failed (by rw [h]; rfl) _ _ (.inl rfl) (.inl (by decide))
    · exact afterCmd0_again hs hn ▸ .cmd0Again h hn

theorem follows_afterCmd8 (h : s.seq = .initCmd8) : Follows s s.afterCmd8 := by
  by_cases hp : s.payload = Config.cmd8Echo
  · exact afterCmd8_echoed hp ▸ .echoed h
  · rw [afterCmd8_mismatched hp, raise_released _ _ hc]
    exact .failed (by rw [h]; rfl) .unsupportedCard s.retryCnt (.inr rfl) (.inr rfl)

theorem follows_afterAcmd41 (h : s.seq = .initCmd55 ∨ s.seq = .initAcmd41) : Follows s s.afterAcmd41 := by
  by_cases hs : s.status &&& 0x01 = 0
  · exact afterAcmd41_ready hs ▸ .ready h
  · by_cases hn : s.retryCnt + 1 = Config.acmd41Retries
    · rw [afterAcmd41_last hs hn, raise_released (s := s.setRetry Config.acmd41Retries) _ _ hc]
      exact .failed (by obtain h | h := h <;> rw [h] <;> rfl) _ _ (.inl rfl) (.inl (Nat.le_refl _))
    · exact afterAcmd41_again hs hn ▸ .acmd41Again h hn

theorem follows_continueAfter : Follows s s.continueAfter := by
  have ends (h : s.seq.op ≠ .init) (hc : s.seq ≠ .cmd) (ht : s.seq ≠ .acmdTarget) := Follows.status h hc ht
  cases hq : s.seq <;> simp only [hq] at ends <;> simp only [State.continueAfter, hq]
  case cmd => exact .reply (.inl hq)
  case acmdTarget => exact .reply (.inr hq)
  case initCmd0 => exact follows_afterCmd0 hc hq
  case initCmd8 => exact follows_afterCmd8 hc hq
  case initCmd58Pre => exact .ocrPre hq
  case initAcmd41 => exact follows_afterAcmd41 hc (.inr hq)
  case initCmd58Post => exact .ocrPost hq
  case lockCmd42 => exact .next _ (by simp [hq])
  case lockAcmd13 => exact ends (by decide) (by decide) (by decide)
  case initCmd55 =>
    split
    · exact follows_afterAcmd41 hc (.inl hq)
    · exact .next _ (by simp [hq])
  case acmdPrefix | lockCmd16 | lockCmd55 =>
    split
    · exact ends (by decide) (by decide) (by decide)
    · exact .next _ (by simp [hq])

end follows

/-- What follows an exchange makes no event of its own: the next exchange is prepared, or the operation has ended. -/
theorem Follows.silent {s t : State} (h : Follows s t) :
    t.cs = s.cs ∧ t.trace = s.trace ∧ (t.phase = .idle ∨ t.phase = .xAssert) := by
  cases h
  case reply | status | ocrPost | failed => exact ⟨by simp, by simp, .inl (by simp)⟩
  all_goals exact ⟨rfl, rfl, .inr rfl⟩

/-- A phase that transfers lies inside an exchange (R142). -/
theorem Phase.selected_of_transfers {p : Phase} (h : p.transfers = true) : p.selected = true := by
  cases p <;> first | rfl | cases h

section exchanges

variable {s u : State} {a b : Byte}

/-- A step's updates after its one transfer leave the exchange going on. -/
theorem exchanges_of_xfer (hu : u.held = s.held) (hp : u.phase.selected = true)
    (ht : u.trace = s.trace ++ [.xfer a b]) : s.Exchanges u :=
  ⟨hu, hp, .inr ⟨a, b, ht⟩⟩

theorem exchanges_transmit (i : Fin 6) : s.Exchanges (txStep i s) := by
  unfold txStep
  split <;> exact exchanges_of_xfer (by simp) rfl rfl

theorem exchanges_crc (k : Fin 2) : s.Exchanges (crcStep k s) := by
  unfold crcStep
  split <;> exact exchanges_of_xfer (by simp) rfl rfl

theorem responseDone_selected (resp : List Byte) : (s.responseDone resp).phase.selected = true := by
  rw [State.responseDone_phase]
  split <;> rfl

theorem exchanges_status : s.Exchanges (s.statusReceived b) := by
  unfold State.statusReceived
  split
  · exact exchanges_of_xfer (by simp) (responseDone_selected _) rfl
  · exact exchanges_of_xfer (by simp) rfl rfl

theorem exchanges_payloadByte (n : Nat) : s.Exchanges ((s.xfer b).setDptr n).afterPayloadByte := by
  unfold State.afterPayloadByte
  split <;> exact exchanges_of_xfer (by simp) rfl rfl

theorem exchanges_data : s.Exchanges (dataStep s) := by
  unfold dataStep
  split
  · exact exchanges_payloadByte _
  · exact ⟨by simp, rfl, .inl rfl⟩

theorem exchanges_tokenAccept (upper : BitVec 3) : s.Exchanges (s.tokenAccept upper) :=
  exchanges_of_xfer (by simp [State.tokenAccept]) rfl rfl

theorem exchanges_busyEnd : s.Exchanges (busyEndStep s) :=
  exchanges_of_xfer (by simp [busyEndStep]) rfl rfl

variable (hp : s.phase.selected = true)
include hp

theorem exchanges_collect : s.Exchanges (collectStep s) := by
  unfold collectStep
  split
  · exact exchanges_of_xfer (by simp) (responseDone_selected _) rfl
  · exact exchanges_of_xfer (by simp) hp rfl

variable (hc : s.cs = true)
include hc

theorem exchanges_idleByte : s.Exchanges (s.xferAs Config.fill Config.idleByte).countIdle := by
  by_cases hn : s.idleCnt + 1 = Config.maxIdlePolls
  · rw [countIdle_last (s := s.xferAs _ _) hn hc]
    exact exchanges_of_xfer (by simp) rfl rfl
  · rw [countIdle_below (s := s.xferAs _ _) hn]
    exact exchanges_of_xfer (by simp) hp rfl

theorem exchanges_busyByte : s.Exchanges (s.xferAs Config.fill Config.busyByte).countBusy := by
  cases hb : s.params.busyBound with
  | none =>
    rw [countBusy_unbounded (s := s.xferAs _ _) hb]
    exact exchanges_of_xfer (by simp) hp rfl
  | some n =>
    by_cases hn : s.busyCnt + 1 = n
    · rw [countBusy_last (s := s.xferAs _ _) hb hn hc]
      exact exchanges_of_xfer (by simp) rfl rfl
    · rw [countBusy_below (s := s.xferAs _ _) hb hn]
      exact exchanges_of_xfer (by simp) hp rfl

theorem exchanges_token : s.Exchanges (tokenStep s) := by
  unfold tokenStep
  split
  · exact exchanges_of_xfer (by simp) hp rfl
  · split
    · rw [raise_selected _ _ (by simp [hc])]
      exact exchanges_of_xfer (by simp) rfl rfl
    · exact exchanges_of_xfer (by simp) hp rfl

end exchanges

/-- In a phase of an exchange, every case of `Active` lets the exchange go on. -/
theorem Active.exchanges {s t : State} (h : Active s t) (hp : s.phase.transfers = true) (hc : s.cs = true) :
    s.Exchanges t := by
  have hsel := Phase.selected_of_transfers hp
  cases h
  case idle h _ | request h _ _ | issue h _ _ | release h | releaseErr h => simp [h, Phase.transfers] at hp
  case transmit i _ => exact exchanges_transmit i
  case pollIdle | tokenIdle => exact exchanges_idleByte hsel hc
  case pollStatus => exact exchanges_status
  case collect => exact exchanges_collect hsel
  case start => exact exchanges_payloadByte 0
  case opByte hb h => exact sendOpByte_eq hb h ▸ exchanges_payloadByte 1
  case data => exact exchanges_data
  case crc k _ => exact exchanges_crc k
  case tokenByte => exact exchanges_token hsel hc
  case tokenAccept => exact exchanges_tokenAccept _
  case busy => exact exchanges_busyByte hsel hc
  case busyEnd => exact exchanges_busyEnd

/-- What a step of the engine proper is for the operation, the chip-select level being the phase's. -/
inductive Stage (s : State) : State → Prop where
  | waits (hp : s.phase = .idle) (h : s.hostPort = []) : Stage s s
  | request (r : Request) (rest : List Request) (t : State) (hp : s.phase = .idle) (h : s.hostPort = r :: rest)
      (he : exec (decodeRequest r) s = .next t) : Stage s t
  | issue (i : Instr) (f : Frame) (rlen : Word) (hasData : Bool) (hp : s.phase = .xAssert)
      (h : decodeFrame s.seq.own s.frameBuf = .ok i)
      (he : exec i s = .next (s.beginExchange f rlen hasData)) : Stage s (s.beginExchange f rlen hasData)
  | exchange (t : State) (hp : s.phase.transfers = true) (h : s.Exchanges t) : Stage s t
  | release (t : State) (hp : s.phase = .xRelease) (h : Follows (s.setCS false) t) : Stage s t
  | releaseErr (k : Kind) (info : Byte) (hp : s.phase = .xReleaseErr k info) :
      Stage s ((s.setCS false).endWithError k info)

theorem Active.stage {s t : State} (h : Active s t) (hcs : s.cs = s.phase.selected) : Stage s t := by
  cases hp : s.phase.transfers with
  | true => exact .exchange t hp (h.exchanges hp (hcs.trans (Phase.selected_of_transfers hp)))
  | false =>
    cases h
    case idle hp h => exact .waits hp h
    case request r rest hp h he => exact .request r rest t hp h he
    case issue i hp h he =>
      obtain ⟨f, rlen, hasData, rfl⟩ := issue_cases h he
      exact .issue i f rlen hasData hp h he
    case release hp => exact .release _ hp (follows_continueAfter rfl)
    case releaseErr k info hp => exact .releaseErr k info hp
    all_goals simp_all [Phase.transfers]

/-- A step without a reset is a stage; while the transport does not complete a transfer, an exchange goes on as it
is. -/
theorem stage_of_step {s t : State} (hcs : s.cs = s.phase.selected) (hr : s.resetPin = false)
    (h : step s = .next t) : Stage s t := by
  obtain ⟨hr', -⟩ | ⟨-, hw, rfl⟩ | ⟨-, -, hf⟩ := step_cases h
  · simp [hr] at hr'
  · obtain ⟨-, hp⟩ := Bool.and_eq_true_iff.mp hw
    exact .exchange _ hp ⟨rfl, Phase.selected_of_transfers hp, .inl rfl⟩
  · exact (active_of_fetch hf).stage hcs

/-- A request begins no exchange of its own: it is refused, or the first frame is built. -/
theorem request_silent {s t : State} {r : Request} (he : exec (decodeRequest r) s = .next t) :
    t.cs = s.cs ∧ t.trace = s.trace ∧ (t.phase = .idle ∨ t.phase = .xAssert) := by
  obtain ⟨rfl, -⟩ | ⟨op, q, id, arg, rlen, data, rfl, -⟩ | ⟨rfl, -⟩ | ⟨op, old, new, rfl, -⟩ := request_cases he
  · exact ⟨rfl, rfl, .inl rfl⟩
  all_goals exact ⟨rfl, rfl, .inr rfl⟩

section bracketed

variable {s t : State} (hs : s.Bracketed)
include hs

theorem bracketed_of_silent (hc : t.cs = s.cs) (ht : t.trace = s.trace) (hp : t.phase.selected = s.phase.selected) :
    t.Bracketed :=
  ⟨by rw [hc, hp, hs.1], by rw [hc, ht, hs.2]⟩

/-- An event is added to a well-bracketed trace where the level allows it. -/
theorem bracketed_of_event {e : Event} (ht : t.trace = s.trace ++ [e]) (hp : t.cs = t.phase.selected)
    (he : replayCS [e] s.cs = some t.cs) : t.Bracketed :=
  ⟨hp, by rw [ht, replay_append, hs.2, Option.bind_some, he]⟩

theorem Stage.bracketed (h : Stage s t) : t.Bracketed := by
  cases h with
  | waits => exact hs
  | request r rest _ hp _ he =>
    obtain ⟨hc, ht, hp'⟩ := request_silent he
    exact bracketed_of_silent hs hc ht (by obtain hp' | hp' := hp' <;> rw [hp, hp']; rfl)
  | issue i f rlen hasData hp =>
    have low : s.cs = false := by rw [hs.1, hp]; rfl
    exact bracketed_of_event hs rfl rfl (by rw [low]; rfl)
  | exchange _ hp h =>
    have high : s.cs = true := hs.1.trans (Phase.selected_of_transfers hp)
    have hc : t.cs = s.cs := (congrArg State.cs h.held :)
    have hsel : t.cs = t.phase.selected := by rw [hc, high, h.selected]
    obtain ht | ⟨a, b, ht⟩ := h.trace
    · exact bracketed_of_silent hs hc ht (by rw [← hsel, hc, hs.1])
    · exact bracketed_of_event hs ht hsel (by rw [hc, high]; rfl)
  | release _ hp h =>
    have high : s.cs = true := by rw [hs.1, hp]; rfl
    obtain ⟨hc, ht, hp'⟩ := h.silent
    rw [State.setCS_cs] at hc
    exact bracketed_of_event hs ht (by obtain hp' | hp' := hp' <;> rw [hc, hp'] <;> rfl) (by rw [hc, high]; rfl)
  | releaseErr k info hp =>
    have high : s.cs = true := by rw [hs.1, hp]; rfl
    exact bracketed_of_event (e := .cs false) hs (by simp) (by simp [Phase.selected]) (by simp [high, replayCS])

theorem hardReset_bracketed : s.hardReset.Bracketed := by
  cases hc : s.cs with
  | false =>
    have level : s.hardReset.cs = false := rfl
    exact ⟨level, by simpa [State.hardReset_trace, hc, level] using hs.2⟩
  | true => exact bracketed_of_event (e := .cs false) hs (by simp [State.hardReset_trace, hc]) rfl (by rw [hc]; rfl)

end bracketed

/-- Settles O46: a reset releases what is asserted, and each stage's event is one the level allows. -/
theorem chipSelectBracketing : Obligations.ChipSelectBracketing := by
  intro s t hcs htr hstep
  have hs : s.Bracketed := ⟨hcs, htr⟩
  cases hr : s.resetPin with
  | false => exact (stage_of_step hcs hr hstep).bracketed hs
  | true =>
    obtain rfl := Host.Outcome.next.inj ((step_resetPin hr).symm.trans hstep)
    exact hardReset_bracketed hs

end Sys2Proof.Machine

/-! The invariant, taken apart by what its clauses depend on: what lasts from operation to operation, the operation in
progress, what the last poll received, and the label. An exchange holds the first two (`State.held`), so a step inside
it has to be looked at for the last two alone; a release changes only the first two. -/

namespace Sys2Proof.Machine

/-- The clauses of the invariant that hold between operations as well, and that no exchange writes. -/
structure State.Lasting (s : State) : Prop where
  params : s.params.wf = true
  retryCnt : s.retryCnt ≤ Config.acmd41Retries
  dbufCap : withinCap s.dbuf.length s.params.dbufCap = true
  ocrPre : ∀ v, s.ocrPre = some v → v.length = 4
  ocrPost : ∀ v, s.ocrPost = some v → v.length = 4
  ocrReady : (s.initState = .ready → s.ocrPre ≠ none ∧ s.ocrPost ≠ none) ∧ (s.initState ≠ .ready → s.ocrPost = none)
  kinds : s.result.kind ≠ .checksumMismatch ∧ s.failKind ≠ .checksumMismatch

/-- The clauses about the operation in progress, which no exchange writes. -/
structure State.Operating (s : State) : Prop where
  op : s.seq.op = s.reqOp
  cmd0Attempt : s.seq = .initCmd0 → s.retryCnt < Config.cmd0Retries
  acmd41Attempt : s.seq = .initCmd55 ∨ s.seq = .initAcmd41 → s.retryCnt < Config.acmd41Retries
  commandData : s.reqOp = .cmd ∨ s.reqOp = .acmd → s.reqHasData = true → s.dbuf ≠ []
  block : s.reqOp = .lockUnlock →
    s.dbuf = passwordBlock s.params s.reqLockOp s.reqOld s.reqNew ∧ s.reqOld.length + s.reqNew.length ≤ 255
  replyCap : s.reqOp = .cmd ∨ s.reqOp = .acmd → withinCap (s.reqRlen.toNat + 1) s.params.rbufCap = true
  initSeq : s.reqOp = .init → s.seq.initState = some s.initState
  initSettled : s.reqOp ≠ .init → s.initState.settled = true
  ocrPolled : s.seq = .initCmd55 ∨ s.seq = .initAcmd41 ∨ s.seq = .initCmd58Post → s.ocrPre ≠ none

/-- The clauses about what the last poll received. -/
def State.Received (s : State) : Prop :=
  s.idleCnt ≤ Config.maxIdlePolls ∧ s.error = errorOf s.status ∧ withinCap s.rbuf.length s.params.rbufCap = true

/-- The operands of the exchange in progress are its own (R76). -/
def State.Issued (s : State) : Prop :=
  s.xRlen = exchangeRlen s.seq s.reqRlen ∧ s.xHasData = exchangeHasData s.seq s.reqHasData

/-- The whole response is in, and the data write follows it (R139, R141). -/
def State.Writes (s : State) : Prop :=
  s.payload.length = s.xRlen.toNat ∧ s.xHasData = true ∧ s.error = false

/-- FRAME_BUF is the frame of the exchange (R81, R110). -/
def State.Framed (s : State) : Prop :=
  s.frameBuf = buildFrame (exchangeId s.seq s.reqId) (exchangeArg s.seq s.reqArg s.params s.dbuf)

/-- The clauses that belong to one label. -/
def State.AtPhase (s : State) : Prop :=
  match s.phase with
  | .idle => s.initState.settled = true
  | .xAssert => s.Framed
  | .xTx _ => s.Framed
  | .xPoll => s.rbuf = [] ∧ s.idleCnt < Config.maxIdlePolls
  | .xCollect => s.rbuf ≠ [] ∧ 0 < s.rleft ∧ s.rbuf.length + s.rleft = s.xRlen.toNat + 1
  | .dStart => s.Writes
  | .dData => s.Writes ∧ s.dptr < s.dbuf.length
  | .dCrc _ => s.Writes ∧ s.crc16 = Machine.crc16 s.dbuf
  | .dToken => s.Writes ∧ ((s.rbuf = [] ∧ s.idleCnt < Config.maxIdlePolls) ∨
      (s.rbuf ≠ [] ∧ 0 < s.rleft ∧ s.rbuf.length + s.rleft = Config.drtLen))
  | .dBusy => s.Writes ∧ tokenAccepted s.token = true ∧ ∀ n, s.params.busyBound = some n → s.busyCnt < n
  | .xRelease => s.payload.length = s.xRlen.toNat
  | .xReleaseErr k info => raisable k info s

section parts

variable {s : State}

theorem inv_of_parts (hl : s.Lasting) (ho : s.phase ≠ .idle → s.Operating) (hb : s.Bracketed) (hr : s.Received)
    (hi : s.cs = true → s.Issued) (ha : s.AtPhase) : s.Inv where
  params := hl.params
  cs := hb.1
  trace := hb.2
  op hp := (ho hp).op
  frame hp := by
    unfold State.AtPhase at ha
    split at ha <;> first | exact ha | simp_all [Phase.framing]
  operands := hi
  idleCnt := hr.1
  retryCnt := hl.retryCnt
  cmd0Attempt hp := (ho hp).cmd0Attempt
  acmd41Attempt hp := (ho hp).acmd41Attempt
  polling hp := by simpa [State.AtPhase, hp] using ha
  collecting hp := by simpa only [State.AtPhase, hp] using ha
  tokenRead hp := by
    simp only [State.AtPhase, hp] at ha
    exact ha.2
  error := hr.2.1
  payload hp := by
    unfold State.AtPhase at ha
    split at ha <;> simp_all [Phase.writing, State.Writes]
  writing hp := by
    unfold State.AtPhase at ha
    split at ha <;> simp_all [Phase.writing, State.Writes]
  dptr hp := by
    simp only [State.AtPhase, hp] at ha
    exact ha.2
  trailer k hp := by
    simp only [State.AtPhase, hp] at ha
    exact ha.2
  busy hp := by
    simp only [State.AtPhase, hp] at ha
    exact ha.2
  raised k info hp := by simpa only [State.AtPhase, hp] using ha
  commandData hp := (ho hp).commandData
  block hp := (ho hp).block
  dbufCap := hl.dbufCap
  replyCap hp := (ho hp).replyCap
  rbufCap := hr.2.2
  initSeq hp := (ho hp).initSeq
  initSettled := by
    rintro (hp | hne)
    · simpa only [State.AtPhase, hp] using ha
    · by_cases hp : s.phase = .idle
      · simpa only [State.AtPhase, hp] using ha
      · exact (ho hp).initSettled hne
  ocrPre := hl.ocrPre
  ocrPost := hl.ocrPost
  ocrReady := hl.ocrReady
  ocrPolled hp := (ho hp).ocrPolled
  kinds := hl.kinds

variable (hI : s.Inv)
include hI

theorem State.Inv.lasting : s.Lasting :=
  ⟨hI.params, hI.retryCnt, hI.dbufCap, hI.ocrPre, hI.ocrPost, hI.ocrReady, hI.kinds⟩

theorem State.Inv.operating (hp : s.phase ≠ .idle) : s.Operating :=
  ⟨hI.op hp, hI.cmd0Attempt hp, hI.acmd41Attempt hp, hI.commandData hp, hI.block hp, hI.replyCap hp, hI.initSeq hp,
    fun h => hI.initSettled (.inr h), hI.ocrPolled hp⟩

theorem State.Inv.bracketed : s.Bracketed := ⟨hI.cs, hI.trace⟩

theorem State.Inv.received : s.Received := ⟨hI.idleCnt, hI.error, hI.rbufCap⟩

theorem State.Inv.writes (hp : s.phase.writing = true) : s.Writes := ⟨hI.payload (.inl hp), hI.writing hp⟩

end parts

section held

variable {s t : State}

theorem lasting_held : s.held.Lasting ↔ s.Lasting :=
  ⟨fun h => ⟨h.params, h.retryCnt, h.dbufCap, h.ocrPre, h.ocrPost, h.ocrReady, h.kinds⟩,
    fun h => ⟨h.params, h.retryCnt, h.dbufCap, h.ocrPre, h.ocrPost, h.ocrReady, h.kinds⟩⟩

theorem operating_held : s.held.Operating ↔ s.Operating :=
  ⟨fun h => ⟨h.op, h.cmd0Attempt, h.acmd41Attempt, h.commandData, h.block, h.replyCap, h.initSeq, h.initSettled,
      h.ocrPolled⟩,
    fun h => ⟨h.op, h.cmd0Attempt, h.acmd41Attempt, h.commandData, h.block, h.replyCap, h.initSeq, h.initSettled,
      h.ocrPolled⟩⟩

theorem issued_held : s.held.Issued ↔ s.Issued := Iff.rfl

/-- A step that goes on with an exchange has to be looked at for what it received and for its label alone. -/
theorem inv_of_exchanges (hI : s.Inv) (hp : s.phase.transfers = true) (h : s.Exchanges t) (hr : t.Received)
    (ha : t.AtPhase) : t.Inv := by
  have hsel := Phase.selected_of_transfers hp
  have busy : s.phase ≠ .idle := by
    intro e
    rw [e] at hp
    cases hp
  refine inv_of_parts (lasting_held.mp ?_) (fun _ => operating_held.mp ?_)
    ((Stage.exchange t hp h).bracketed hI.bracketed) hr (fun _ => issued_held.mp ?_) ha <;> rw [h.held]
  · exact lasting_held.mpr hI.lasting
  · exact operating_held.mpr (hI.operating busy)
  · exact issued_held.mpr (hI.operands (hI.cs.trans hsel))

end held

end Sys2Proof.Machine

/-! The label's clauses after each step of an exchange, and what it received. -/

namespace Sys2Proof.Machine

section updates

variable {s : State}

@[simp] theorem received_xfer (t : Byte) : (s.xfer t).Received ↔ s.Received := Iff.rfl
@[simp] theorem received_goto (p : Phase) : (s.goto p).Received ↔ s.Received := Iff.rfl
@[simp] theorem received_setToken (t : Byte) : (s.setToken t).Received ↔ s.Received := Iff.rfl
@[simp] theorem received_beginBusy : s.beginBusy.Received ↔ s.Received := Iff.rfl
@[simp] theorem received_setReply (l : List Byte) (n : Nat) :
    (s.setReply l n).Received ↔
      s.idleCnt ≤ Config.maxIdlePolls ∧ s.error = errorOf s.status ∧ withinCap l.length s.params.rbufCap = true :=
  Iff.rfl

theorem received_collectByte :
    s.collectByte.Received ↔ s.idleCnt ≤ Config.maxIdlePolls ∧ s.error = errorOf s.status ∧
      withinCap (s.rbuf ++ [s.rxByte]).length s.params.rbufCap = true := by
  simp [State.collectByte]

@[simp] theorem writes_xfer (t : Byte) : (s.xfer t).Writes ↔ s.Writes := Iff.rfl
@[simp] theorem writes_setToken (t : Byte) : (s.setToken t).Writes ↔ s.Writes := Iff.rfl
@[simp] theorem writes_setReply (l : List Byte) (n : Nat) : (s.setReply l n).Writes ↔ s.Writes := Iff.rfl
@[simp] theorem writes_beginBusy : s.beginBusy.Writes ↔ s.Writes := Iff.rfl
@[simp] theorem writes_collectByte : s.collectByte.Writes ↔ s.Writes := by simp [State.collectByte]

/-- A whole response goes on to the data write exactly where its clauses hold (R139 to R141). -/
theorem atPhase_responseDone {st : Byte} {reply : List Byte} (hl : reply.length = s.xRlen.toNat) :
    (s.responseDone (st :: reply)).AtPhase := by
  by_cases hd : dataFollows st s.xHasData = true
  · have hp : (s.responseDone (st :: reply)).phase = .dStart := if_pos hd
    simp only [dataFollows, Bool.and_eq_true, Bool.not_eq_true'] at hd
    rw [State.AtPhase, hp]
    exact ⟨hl, hd.2, hd.1⟩
  · have hp : (s.responseDone (st :: reply)).phase = .xRelease := if_neg hd
    rw [State.AtPhase, hp]
    exact hl

theorem received_responseDone {resp : List Byte} (hr : s.Received) : (s.responseDone resp).Received :=
  ⟨hr.1, rfl, hr.2.2⟩

/-- The payload byte before DPTR is sent: DPTR is at the next one, or the trailer is the payload's (R146, R147). -/
theorem atPhase_afterPayloadByte (hw : s.Writes) : s.afterPayloadByte.AtPhase := by
  by_cases hd : s.dptr < s.dbuf.length
  · rw [afterPayloadByte_more hd]
    exact ⟨hw, hd⟩
  · rw [afterPayloadByte_last hd]
    exact ⟨hw, rfl⟩

theorem received_afterPayloadByte (hr : s.Received) : s.afterPayloadByte.Received := by
  unfold State.afterPayloadByte
  split <;> exact hr

/-- Collecting a byte moves one from those left to those kept (R121). -/
theorem collectByte_counts (hl : 1 < s.rleft) {n : Nat} (hn : s.rbuf.length + s.rleft = n) :
    s.collectByte.rbuf ≠ [] ∧ 0 < s.collectByte.rleft ∧ s.collectByte.rbuf.length + s.collectByte.rleft = n := by
  rw [State.collectByte_rbuf, State.collectByte_rleft, List.length_append, List.length_singleton]
  exact ⟨List.append_ne_nil_of_right_ne_nil _ (List.cons_ne_nil _ _), by omega, by omega⟩

end updates

section inv

variable {s : State} (hI : s.Inv)
include hI

/-- The busy wait starts below its bound, a bound being a positive count (R6, R126). -/
theorem busyBound_pos {n : Nat} (h : s.params.busyBound = some n) : 0 < n := by
  have hw := hI.params
  simp only [Config.Params.wf, h, Option.all_some, Bool.and_eq_true, decide_eq_true_eq] at hw
  exact hw.1.1.1

/-- RBUF_CAP holds the four bytes of a token (R27). -/
theorem token_fits {l : List Byte} (h : l.length ≤ Config.drtLen) : withinCap l.length s.params.rbufCap = true :=
  rbufCap_five hI.params (Nat.le_succ_of_le h)

theorem State.Inv.idle_of_released (hc : s.cs = true) : s.phase ≠ .idle := by
  intro e
  rw [hI.cs, e] at hc
  cases hc

/-- The response of the exchange in progress fits RBUF (R27, R136). -/
theorem response_fits (hc : s.cs = true) {l : List Byte} (h : l.length ≤ s.xRlen.toNat + 1) :
    withinCap l.length s.params.rbufCap = true := by
  rw [(hI.operands hc).1] at h
  exact withinCap_mono (hI.reply_fits (hI.idle_of_released hc)) h

theorem inv_transmit {i : Fin 6} (hp : s.phase = .xTx i) : (txStep i s).Received ∧ (txStep i s).AtPhase := by
  unfold txStep
  split
  · have framed : s.Framed := hI.frame (by rw [hp]; rfl)
    exact ⟨hI.received, framed⟩
  · exact ⟨⟨Nat.zero_le _, hI.error, withinCap_zero⟩, rfl, Nat.zero_lt_succ _⟩

/-- An idle byte, where one is counted: the poll goes on below its budget, or the timeout is raised (R120, R138). -/
theorem inv_idleByte (hc : s.cs = true) (hb : s.rbuf = [] ∧ s.idleCnt < Config.maxIdlePolls)
    (hp : s.phase = .xPoll ∨ s.phase = .dToken) :
    (s.xferAs Config.fill Config.idleByte).countIdle.Received ∧
      (s.xferAs Config.fill Config.idleByte).countIdle.AtPhase := by
  by_cases hn : s.idleCnt + 1 = Config.maxIdlePolls
  · rw [countIdle_last (s := s.xferAs _ _) hn hc]
    exact ⟨⟨Nat.le_of_eq hn, hI.error, hI.rbufCap⟩, .inl ⟨rfl, rfl⟩⟩
  · rw [countIdle_below (s := s.xferAs _ _) hn]
    have below : s.idleCnt + 1 < Config.maxIdlePolls := Nat.lt_of_le_of_ne hb.2 hn
    refine ⟨⟨hb.2, hI.error, hI.rbufCap⟩, ?_⟩
    obtain hp | hp := hp <;> simp only [State.AtPhase, State.bumpIdle_phase, State.xferAs_phase, hp]
    · exact ⟨hb.1, below⟩
    · exact ⟨hI.writes (by rw [hp]; rfl), .inl ⟨hb.1, below⟩⟩

theorem inv_status (hc : s.cs = true) (b : Byte) : (s.statusReceived b).Received ∧ (s.statusReceived b).AtPhase := by
  have kept (n : Nat) : ((s.xferAs Config.fill b).setReply [b] n).Received :=
    ⟨hI.idleCnt, hI.error, response_fits hI hc (l := [b]) (Nat.le_add_left 1 _)⟩
  unfold State.statusReceived
  split
  · rename_i h0
    exact ⟨received_responseDone (kept 0), atPhase_responseDone h0.symm⟩
  · rename_i h0
    exact ⟨kept s.xRlen.toNat, List.cons_ne_nil _ _, Nat.pos_of_ne_zero h0, Nat.add_comm _ _⟩

theorem inv_collect (hc : s.cs = true) (hp : s.phase = .xCollect) :
    (collectStep s).Received ∧ (collectStep s).AtPhase := by
  obtain ⟨hne, hpos, hlen⟩ := hI.collecting hp
  have grown : (s.rbuf ++ [s.rxByte]).length = s.rbuf.length + 1 := List.length_append
  have kept : s.collectByte.Received :=
    received_collectByte.mpr ⟨hI.idleCnt, hI.error, response_fits hI hc (by omega)⟩
  unfold collectStep
  split
  · obtain ⟨st, reply, hb⟩ := List.exists_cons_of_ne_nil hne
    refine ⟨received_responseDone kept, ?_⟩
    simp only [hb, List.cons_append, List.length_cons] at grown hlen ⊢
    exact atPhase_responseDone (by rw [State.collectByte_xRlen]; omega)
  · rename_i hl
    refine ⟨kept, ?_⟩
    simp only [State.AtPhase, State.collectByte_phase, hp, State.collectByte_xRlen]
    exact collectByte_counts (Nat.lt_of_not_le hl) hlen

theorem inv_payloadByte (hp : s.phase.writing = true) (b : Byte) (n : Nat) :
    ((s.xfer b).setDptr n).afterPayloadByte.Received ∧ ((s.xfer b).setDptr n).afterPayloadByte.AtPhase :=
  ⟨received_afterPayloadByte hI.received, atPhase_afterPayloadByte (s := (s.xfer b).setDptr n) (hI.writes hp)⟩

theorem inv_data (hp : s.phase = .dData) : (dataStep s).Received ∧ (dataStep s).AtPhase := by
  rw [dataStep_eq (List.getElem?_eq_getElem (hI.dptr hp))]
  exact inv_payloadByte hI (by rw [hp]; rfl) _ _

theorem inv_crc {k : Fin 2} (hp : s.phase = .dCrc k) : (crcStep k s).Received ∧ (crcStep k s).AtPhase := by
  have hw := hI.writes (by rw [hp]; rfl)
  unfold crcStep
  split
  · exact ⟨hI.received, hw, hI.trailer _ hp⟩
  · exact ⟨⟨Nat.zero_le _, hI.error, withinCap_zero⟩, hw, .inl ⟨rfl, Nat.zero_lt_succ _⟩⟩

/-- Past its first byte, a token read has the bytes of DRT_LEN yet to come (R148). -/
theorem token_counts (hp : s.phase = .dToken) (hb : s.rbuf ≠ []) :
    0 < s.rleft ∧ s.rbuf.length + s.rleft = Config.drtLen ∧
      withinCap (s.rbuf ++ [s.rxByte]).length s.params.rbufCap = true := by
  obtain ⟨hnil, -⟩ | ⟨-, hpos, hlen⟩ := hI.tokenRead hp
  · exact absurd hnil hb
  · exact ⟨hpos, hlen, token_fits hI (by rw [List.length_append, List.length_singleton]; omega)⟩

theorem inv_token (hc : s.cs = true) (hp : s.phase = .dToken)
    (hr : ∀ t rest, s.rbuf = t :: rest → s.rleft ≤ 1 → tokenAccepted t = false) :
    (tokenStep s).Received ∧ (tokenStep s).AtPhase := by
  have hw := hI.writes (by rw [hp]; rfl)
  unfold tokenStep
  split
  · refine ⟨⟨hI.idleCnt, hI.error, token_fits hI (Nat.succ_le_succ (Nat.zero_le 3))⟩, ?_⟩
    simp only [State.AtPhase, State.setReply_phase, State.xfer_phase, hp]
    exact ⟨hw, .inr ⟨List.cons_ne_nil _ _, Nat.zero_lt_succ _, rfl⟩⟩
  · rename_i t rest hb
    obtain ⟨hpos, hlen, fits⟩ := token_counts hI hp (by rw [hb]; exact List.cons_ne_nil _ _)
    have kept : s.collectByte.Received := received_collectByte.mpr ⟨hI.idleCnt, hI.error, fits⟩
    split
    · rename_i hl
      rw [raise_selected _ _ (by simp [hc])]
      refine ⟨by simpa using kept, ?_⟩
      simpa [State.AtPhase, raisable] using ⟨hr t rest hb hl, hw.2.1⟩
    · rename_i hl
      refine ⟨kept, ?_⟩
      simp only [State.AtPhase, State.collectByte_phase, hp, writes_collectByte]
      exact ⟨hw, .inr (collectByte_counts (Nat.lt_of_not_le hl) hlen)⟩

theorem inv_tokenAccept {t : Byte} {rest : List Byte} (hp : s.phase = .dToken) (hb : s.rbuf = t :: rest)
    (ha : tokenAccepted t = true) :
    (s.tokenAccept (t.extractLsb' 5 3)).Received ∧ (s.tokenAccept (t.extractLsb' 5 3)).AtPhase := by
  obtain ⟨-, -, fits⟩ := token_counts hI hp (by rw [hb]; exact List.cons_ne_nil _ _)
  have hw := hI.writes (by rw [hp]; rfl)
  have bound (n : Nat) (hn : s.params.busyBound = some n) : 0 < n := busyBound_pos hI hn
  rw [State.tokenAccept, accepted_token t ha]
  refine ⟨?_, by simpa [State.AtPhase] using ⟨hw, ha, bound⟩⟩
  simpa only [received_beginBusy, received_setToken, received_setReply] using ⟨hI.idleCnt, hI.error, fits⟩

theorem inv_busyByte (hc : s.cs = true) (hp : s.phase = .dBusy) :
    (s.xferAs Config.fill Config.busyByte).countBusy.Received ∧
      (s.xferAs Config.fill Config.busyByte).countBusy.AtPhase := by
  have hw := hI.writes (by rw [hp]; rfl)
  obtain ⟨accepted, below⟩ := hI.busy hp
  cases hb : s.params.busyBound with
  | none =>
    rw [countBusy_unbounded (s := s.xferAs _ _) hb]
    refine ⟨hI.received, ?_⟩
    simp only [State.AtPhase, State.xferAs_phase, hp]
    exact ⟨hw, accepted, below⟩
  | some n =>
    by_cases hn : s.busyCnt + 1 = n
    · rw [countBusy_last (s := s.xferAs _ _) hb hn hc]
      have bounded : s.params.busyBound ≠ none := by simp [hb]
      exact ⟨hI.received, .inr (.inr ⟨rfl, rfl, bounded, hw.2.1⟩)⟩
    · rw [countBusy_below (s := s.xferAs _ _) hb hn]
      refine ⟨hI.received, ?_⟩
      simp only [State.AtPhase, State.bumpBusy_phase, State.xferAs_phase, hp]
      refine ⟨hw, accepted, fun m hm => ?_⟩
      obtain rfl : n = m := Option.some.inj (hb.symm.trans hm)
      exact Nat.lt_of_le_of_ne (below n hb) hn

theorem inv_busyEnd (hp : s.phase = .dBusy) : (busyEndStep s).Received ∧ (busyEndStep s).AtPhase :=
  ⟨hI.received, hI.payload (.inl (by rw [hp]; rfl))⟩

end inv

/-- What a step of an exchange received, and its label's clauses. -/
theorem Active.atPhase {s t : State} (h : Active s t) (hI : s.Inv) (hp : s.phase.transfers = true) :
    t.Received ∧ t.AtPhase := by
  have hc : s.cs = true := hI.cs.trans (Phase.selected_of_transfers hp)
  cases h
  case idle h _ | request h _ _ | issue h _ _ | release h | releaseErr h => simp [h, Phase.transfers] at hp
  case transmit h => exact inv_transmit hI h
  case pollIdle h _ => exact inv_idleByte hI hc (hI.polling h) (.inl h)
  case pollStatus => exact inv_status hI hc _
  case collect h => exact inv_collect hI hc h
  case start h => exact inv_payloadByte hI (by rw [h]; rfl) _ _
  case opByte h _ _ hb ho => exact sendOpByte_eq hb ho ▸ inv_payloadByte hI (by rw [h]; rfl) _ _
  case data h => exact inv_data hI h
  case crc h => exact inv_crc hI h
  case tokenIdle h hi =>
    have hb : s.rbuf = [] := by simp_all [State.tokenIdle]
    obtain hr | ⟨hne, -⟩ := hI.tokenRead h
    · exact inv_idleByte hI hc hr (.inr h)
    · exact absurd hb hne
  case tokenByte h _ hr => exact inv_token hI hc h hr
  case tokenAccept h hb _ ha => exact inv_tokenAccept hI h hb ha
  case busy h _ => exact inv_busyByte hI hc h
  case busyEnd h _ => exact inv_busyEnd hI h

end Sys2Proof.Machine

/-! The invariant between exchanges: at a request, at the beginning of an exchange, and at its release. -/

namespace Sys2Proof.Machine

/-- What a step outside an exchange must give: the clauses that last, those of the operation where one is in progress,
and the label's. -/
def State.Between (s : State) : Prop := s.Lasting ∧ (s.phase ≠ .idle → s.Operating) ∧ s.AtPhase

section shapes

variable {s : State}

/-- An operation that has ended leaves INIT_STATE at one of the values between operations (R21). -/
theorem between_idle (hp : s.phase = .idle) (hl : s.Lasting) (hs : s.initState.settled = true) : s.Between := by
  refine ⟨hl, fun h => absurd hp h, ?_⟩
  rw [State.AtPhase, hp]
  exact hs

/-- The frame of a prepared exchange is its own (R110). -/
theorem between_prepare {q : Seq} (hl : s.Lasting) (ho : (s.prepare q).Operating) : (s.prepare q).Between :=
  ⟨{ hl with }, fun _ => ho, rfl⟩

/-- Of the clauses about an operation, those about INIT's own registers are left for an exchange of INIT. -/
theorem operating_init {q : Seq} (hr : s.reqOp = .init) (hq : q.op = .init) (hi : q.initState = some s.initState)
    (h0 : q = .initCmd0 → s.retryCnt < Config.cmd0Retries)
    (h41 : q = .initCmd55 ∨ q = .initAcmd41 → s.retryCnt < Config.acmd41Retries)
    (hpre : q = .initCmd55 ∨ q = .initAcmd41 ∨ q = .initCmd58Post → s.ocrPre ≠ none) : (s.prepare q).Operating where
  op := hq.trans hr.symm
  cmd0Attempt := h0
  acmd41Attempt := h41
  commandData h := by simp [hr] at h
  block h := by simp [hr] at h
  replyCap h := by simp [hr] at h
  initSeq _ := hi
  initSettled h := absurd hr h
  ocrPolled := hpre

/-- Of the clauses about an operation, those about its operands are left for an exchange of the other operations. -/
theorem operating_other {q : Seq} (hi : q.initState = none) (hq : q.op = s.reqOp) (hr : s.reqOp ≠ .init)
    (hs : s.initState.settled = true)
    (hdata : s.reqOp = .cmd ∨ s.reqOp = .acmd → s.reqHasData = true → s.dbuf ≠ [])
    (hblock : s.reqOp = .lockUnlock →
      s.dbuf = passwordBlock s.params s.reqLockOp s.reqOld s.reqNew ∧ s.reqOld.length + s.reqNew.length ≤ 255)
    (hreply : s.reqOp = .cmd ∨ s.reqOp = .acmd → withinCap (s.reqRlen.toNat + 1) s.params.rbufCap = true) :
    (s.prepare q).Operating where
  op := hq
  cmd0Attempt := by rintro rfl; cases hi
  acmd41Attempt := by rintro (rfl | rfl) <;> cases hi
  commandData := hdata
  block := hblock
  replyCap := hreply
  initSeq h := absurd h hr
  initSettled _ := hs
  ocrPolled := by rintro (rfl | rfl | rfl) <;> cases hi

/-- OCR_POST holds nothing while INIT runs (R160, R169). -/
theorem State.Operating.ocrPost_init (ho : s.Operating) (hl : s.Lasting) (h : s.reqOp = .init) : s.ocrPost = none := by
  have hseq := ho.initSeq h
  refine hl.ocrReady.2 fun hready => ?_
  rw [hready] at hseq
  cases hq : s.seq <;> simp [hq, Seq.initState] at hseq

/-- INIT ends in S_FAILED when it raises an error, and nothing else changes INIT_STATE then (R171, R208). -/
theorem between_endWithError {k : Kind} {info : Byte} (hl : s.Lasting)
    (ho : s.reqOp ≠ .init → s.initState.settled = true) (hk : k ≠ .checksumMismatch)
    (hpost : s.reqOp = .init → s.ocrPost = none) : (s.endWithError k info).Between := by
  by_cases h : s.reqOp = .init
  · rw [State.endWithError, recordInitFailure_init k info h]
    exact between_idle rfl { hl with ocrReady := ⟨nofun, fun _ => hpost h⟩, kinds := ⟨hk, hk⟩ } rfl
  · rw [State.endWithError, recordInitFailure_other k info h]
    exact between_idle rfl { hl with kinds := ⟨hk, hl.kinds.2⟩ } (ho h)

end shapes

section follows

variable {s t : State}

theorem Follows.between (h : Follows s t) (hl : s.Lasting) (ho : s.Operating)
    (hp : s.payload.length = (exchangeRlen s.seq s.reqRlen).toNat) : t.Between := by
  have inInit {q : Seq} (hq : s.seq = q) (h : q.op = .init) : s.reqOp = .init := by rw [← ho.op, hq, h]
  cases h with
  | reply h =>
    have notInit : s.reqOp ≠ .init := by
      rw [← ho.op]
      obtain h | h := h <;> rw [h] <;> decide
    exact between_idle rfl { hl with kinds := ⟨nofun, hl.kinds.2⟩ } (ho.initSettled notInit)
  | status h => exact between_idle rfl { hl with kinds := ⟨nofun, hl.kinds.2⟩ } (ho.initSettled (ho.op ▸ h))
  | failed h k n hk hn =>
    have bound : n ≤ Config.acmd41Retries := hn.elim id (· ▸ hl.retryCnt)
    refine between_endWithError (s := s.setRetry n) { hl with retryCnt := bound } ho.initSettled ?_
      (ho.ocrPost_init hl)
    obtain rfl | rfl := hk <;> nofun
  | next q h =>
    refine between_prepare hl ?_
    simp only [List.mem_cons, Prod.mk.injEq, List.not_mem_nil, or_false] at h
    obtain ⟨h, rfl⟩ | ⟨h, rfl⟩ | ⟨h, rfl⟩ | ⟨h, rfl⟩ | ⟨h, rfl⟩ := h
    case inr.inl =>
      have hr := inInit h rfl
      exact operating_init hr rfl (h ▸ ho.initSeq hr :) nofun (fun _ => ho.acmd41Attempt (.inl h))
        (fun _ => ho.ocrPolled (.inl h))
    all_goals
      have hr := ho.op
      rw [h] at hr
      have notInit : s.reqOp ≠ .init := hr ▸ nofun
      exact operating_other rfl hr notInit (ho.initSettled notInit) ho.commandData ho.block ho.replyCap
  | cmd0Succeeded h =>
    have hr := inInit h rfl
    refine between_prepare { hl with
      retryCnt := Nat.le_trans (ho.cmd0Attempt h) (by decide)
      ocrReady := ⟨nofun, fun _ => ho.ocrPost_init hl hr⟩ } ?_
    exact operating_init hr rfl rfl nofun nofun nofun
  | cmd0Again h hn =>
    have hr := inInit h rfl
    have below : s.retryCnt + 1 < Config.cmd0Retries := Nat.lt_of_le_of_ne (ho.cmd0Attempt h) hn
    refine between_prepare { hl with retryCnt := Nat.le_trans (Nat.le_of_lt below) (by decide) } ?_
    exact operating_init hr rfl (h ▸ ho.initSeq hr :) (fun _ => below) nofun nofun
  | echoed h =>
    have hr := inInit h rfl
    refine between_prepare { hl with ocrReady := ⟨nofun, fun _ => ho.ocrPost_init hl hr⟩ } ?_
    exact operating_init hr rfl rfl nofun nofun nofun
  | ocrPre h =>
    have hr := inInit h rfl
    have four : ∀ v, some s.payload = some v → v.length = 4 := by
      rintro v ⟨⟩
      rw [hp, h]
      rfl
    have hpost := ho.ocrPost_init hl hr
    have polling : s.initState = .ocrPoll := (Option.some.inj (h ▸ ho.initSeq hr :)).symm
    refine between_prepare { hl with
      retryCnt := Nat.zero_le _
      ocrPre := four
      ocrReady := ⟨fun e => (nomatch polling.symm.trans e), fun _ => hpost⟩ } ?_
    exact operating_init hr rfl (h ▸ ho.initSeq hr :) nofun (fun _ => Nat.zero_lt_succ _) (fun _ => nofun)
  | ready h =>
    have hr : s.reqOp = .init := h.elim (inInit · rfl) (inInit · rfl)
    have hi : Seq.initState .initCmd58Post = some s.initState := by
      have := ho.initSeq hr
      obtain h | h := h <;> rwa [h] at this
    refine between_prepare { hl with retryCnt := ho.acmd41Attempt h } ?_
    exact operating_init hr rfl hi nofun nofun fun _ => ho.ocrPolled (h.imp_right .inl)
  | acmd41Again h hn =>
    have hr : s.reqOp = .init := h.elim (inInit · rfl) (inInit · rfl)
    have hi : Seq.initState .initCmd55 = some s.initState := by
      have := ho.initSeq hr
      obtain h | h := h <;> rwa [h] at this
    refine between_prepare { hl with retryCnt := ho.acmd41Attempt h } ?_
    exact operating_init hr rfl hi nofun (fun _ => Nat.lt_of_le_of_ne (ho.acmd41Attempt h) hn)
      fun _ => ho.ocrPolled (h.imp_right .inl)
  | ocrPost h =>
    have four : ∀ v, some s.payload = some v → v.length = 4 := by
      rintro v ⟨⟩
      rw [hp, h]
      rfl
    have hpre : s.ocrPre ≠ none := ho.ocrPolled (.inr (.inr h))
    exact between_idle rfl { hl with
      ocrPost := four
      ocrReady := ⟨fun _ => ⟨hpre, nofun⟩, fun e => absurd rfl e⟩
      kinds := ⟨nofun, hl.kinds.2⟩ } rfl

end follows

section request

variable {s t : State}

/-- A password block is two bytes and the passwords (R180). -/
theorem passwordBlock_length (p : Config.Params) (op : LockOp) (old new : List Byte) :
    (passwordBlock p op old new).length = 2 + old.length + new.length := by
  simp only [passwordBlock, List.length_cons, List.length_append]
  omega

theorem withinCap_iff {n : Nat} {cap : Option Nat} : withinCap n cap = true ↔ ∀ c, cap = some c → n ≤ c := by
  cases cap <;> simp [withinCap]

theorem between_command {op : HostOp} {q : Seq} {id : Byte} {arg rlen : Word} {data : Option (List Byte)}
    (hl : s.Lasting) (hs : s.initState.settled = true) (hq : op = .cmd ∧ q = .cmd ∨ op = .acmd ∧ q = .acmdPrefix)
    (hv : commandValid s.params id rlen data = true) :
    ((s.takeRequest.latchCommand op id arg rlen data).prepare q).Between := by
  obtain ⟨-, hreply, hdata⟩ := commandValid_iff.mp hv
  have fits : withinCap (data.getD s.dbuf).length s.params.dbufCap = true := by
    cases data with
    | none => exact hl.dbufCap
    | some d => exact withinCap_iff.mpr (hdata d rfl).2
  have filled : data.isSome = true → data.getD s.dbuf ≠ [] := by
    cases data with
    | none => nofun
    | some d => exact fun _ => (hdata d rfl).1
  refine between_prepare { hl with dbufCap := fits } ?_
  obtain ⟨rfl, rfl⟩ | ⟨rfl, rfl⟩ := hq <;>
    exact operating_other rfl rfl nofun hs (fun _ => filled) nofun (fun _ => withinCap_iff.mpr hreply)

theorem between_lock {op : LockOp} {old new : List Byte} (hl : s.Lasting) (hs : s.initState.settled = true)
    (hv : passwordsValid s.params old new = true) :
    ((s.takeRequest.latchLock op old new).prepare .lockCmd16).Between := by
  obtain ⟨hlen, hcap⟩ := passwordsValid_iff.mp hv
  have fits : withinCap (passwordBlock s.params op old new).length s.params.dbufCap = true := by
    rw [passwordBlock_length]
    exact withinCap_iff.mpr hcap
  exact between_prepare { hl with dbufCap := fits }
    (operating_other rfl rfl nofun hs nofun (fun _ => ⟨rfl, hlen⟩) nofun)

theorem between_request {r : Request} (he : exec (decodeRequest r) s = .next t) (hl : s.Lasting)
    (hs : s.initState.settled = true) : t.Between := by
  obtain ⟨rfl, -⟩ | ⟨op, q, id, arg, rlen, data, rfl, hq, hv, -⟩ | ⟨rfl, -⟩ | ⟨op, old, new, rfl, hv, -⟩ :=
    request_cases he
  · exact between_idle rfl { hl with kinds := ⟨nofun, hl.kinds.2⟩ } hs
  · exact between_command hl hs hq hv
  · exact between_prepare { hl with
      retryCnt := Nat.zero_le _
      ocrPre := nofun
      ocrPost := nofun
      ocrReady := ⟨nofun, fun _ => rfl⟩ } (operating_init rfl rfl rfl (fun _ => Nat.zero_lt_succ _) nofun nofun)
  · exact between_lock hl hs hv

end request

/-- The registers a poll fills are the same in both states. -/
def State.sameReceived (s t : State) : Prop :=
  t.idleCnt = s.idleCnt ∧ t.status = s.status ∧ t.error = s.error ∧ t.rbuf = s.rbuf ∧ t.params = s.params

section steps

variable {s t : State}

theorem State.Received.congr (hr : s.Received) (h : s.sameReceived t) : t.Received := by
  obtain ⟨hi, hst, he, hb, hp⟩ := h
  rwa [State.Received, hi, hst, he, hb, hp]

theorem Follows.sameReceived (h : Follows s t) : s.sameReceived t := by
  cases h
  case failed => simp [State.sameReceived]
  all_goals exact ⟨rfl, rfl, rfl, rfl, rfl⟩

theorem request_sameReceived {r : Request} (he : exec (decodeRequest r) s = .next t) : s.sameReceived t := by
  obtain ⟨rfl, -⟩ | ⟨op, q, id, arg, rlen, data, rfl, -⟩ | ⟨rfl, -⟩ | ⟨op, old, new, rfl, -⟩ := request_cases he <;>
    exact ⟨rfl, rfl, rfl, rfl, rfl⟩

/-- Outside an exchange chip-select is released, so no clause about the exchange's operands is left. -/
theorem inv_of_between (hb : t.Between) (hs : t.Bracketed) (hr : t.Received)
    (hp : t.phase = .idle ∨ t.phase = .xAssert) : t.Inv := by
  refine inv_of_parts hb.1 hb.2.1 hs hr (fun hc => ?_) hb.2.2
  rw [hs.1] at hc
  obtain hp | hp := hp <;> rw [hp] at hc <;> cases hc

/-- FRAME_BUF holds the frame of the exchange, so the row that begins it begins it with its own operands (R76, R81). -/
theorem issue_eq {i : Instr} (hI : s.Inv) (hp : s.phase = .xAssert)
    (h : decodeFrame s.seq.own s.frameBuf = .ok i) :
    exec i s = .next (s.beginExchange s.frameBuf (exchangeRlen s.seq s.reqRlen)
      (exchangeHasData s.seq s.reqHasData)) := by
  have framed : s.Framed := hI.frame (by rw [hp]; rfl)
  rw [framed, decode_issued] at h
  rw [← Except.ok.inj h, exec_issuedRow, framed]

theorem Active.inv (h : Active s t) (hI : s.Inv) : t.Inv := by
  have hb := (h.stage hI.cs).bracketed hI.bracketed
  cases h.stage hI.cs with
  | waits => exact hI
  | request r rest _ hp _ he =>
    exact inv_of_between (between_request he hI.lasting (hI.initSettled (.inl hp))) hb
      (hI.received.congr (request_sameReceived he)) (request_silent he).2.2
  | issue i f rlen hasData hp hd he =>
    have ho := hI.operating (by rw [hp]; nofun)
    have framed : s.Framed := hI.frame (by rw [hp]; rfl)
    have e := Host.Outcome.next.inj (he.symm.trans (issue_eq hI hp hd))
    rw [e] at hb ⊢
    exact inv_of_parts { hI.lasting with } (fun _ => { ho with }) hb hI.received (fun _ => ⟨rfl, rfl⟩) framed
  | exchange _ hp he =>
    obtain ⟨hr, ha⟩ := h.atPhase hI hp
    exact inv_of_exchanges hI hp he hr ha
  | release _ hp hf =>
    have hl : (s.setCS false).Lasting := { hI.lasting with }
    have ho : (s.setCS false).Operating := { hI.operating (by rw [hp]; nofun) with }
    have hlen : s.payload.length = (exchangeRlen s.seq s.reqRlen).toNat := by
      rw [hI.payload (.inr hp), (hI.operands (by rw [hI.cs, hp]; rfl)).1]
    have hr : (s.setCS false).Received := hI.received
    exact inv_of_between (hf.between hl ho hlen) hb (hr.congr hf.sameReceived) hf.silent.2.2
  | releaseErr k info hp =>
    have hl : (s.setCS false).Lasting := { hI.lasting with }
    have ho := hI.operating (by rw [hp]; nofun)
    have hk : k ≠ .checksumMismatch := by
      obtain ⟨rfl, -⟩ | ⟨rfl, -⟩ | ⟨rfl, -⟩ := hI.raised k info hp <;> nofun
    exact inv_of_between (between_endWithError hl ho.initSettled hk (ho.ocrPost_init hI.lasting)) hb
      (by simpa [State.Received] using hI.received) (.inl (by simp))

/-- Reset leaves nothing of an operation, and the parameters as they were (R8, R37). -/
theorem hardReset_inv (hp : s.params.wf = true) (hb : s.hardReset.Bracketed) : s.hardReset.Inv := by
  have lasting : s.hardReset.Lasting :=
    ⟨hp, Nat.zero_le _, withinCap_zero, nofun, nofun, ⟨nofun, fun _ => rfl⟩, nofun, nofun⟩
  have received : s.hardReset.Received := ⟨Nat.zero_le _, (by decide : false = errorOf 0x00), withinCap_zero⟩
  exact inv_of_between (between_idle rfl lasting rfl) hb received (.inl rfl)

end steps

/-- Settles O45: a reset and a wait keep the invariant, and each stage of a step of the engine proper gives its clauses
part by part. -/
theorem stepKeepsInv : Obligations.StepKeepsInv := by
  intro s t hI hstep
  obtain ⟨-, rfl⟩ | ⟨-, -, rfl⟩ | ⟨-, -, hf⟩ := step_cases hstep
  · exact hardReset_inv hI.params (hardReset_bracketed hI.bracketed)
  · exact hI
  · exact (active_of_fetch hf).inv hI

/-- Settles O44: the state right after reset is what a reset makes of it. -/
theorem invHoldsAtReset : Obligations.InvHoldsAtReset :=
  hardReset_inv (s := State.reset) rfl ⟨rfl, rfl⟩

end Sys2Proof.Machine

/-! What every step keeps, from the stages: RESULT and INIT's registers outside the steps that write them, and what an
operation that ends delivers (R21, R24, R34, R204). -/

namespace Sys2Proof.Machine

section held

variable {s t : State} (h : t.held = s.held)
include h

theorem sameInit_of_held : sameInit s t :=
  ⟨(congrArg State.initState h :), (congrArg State.failKind h :), (congrArg State.failInfo h :),
    (congrArg State.ocrPre h :), (congrArg State.ocrPost h :)⟩

theorem sameResult_of_held : sameResult s t :=
  ⟨(congrArg State.result h :), (congrArg State.resultDelivered h :)⟩

theorem sameRequest_of_held : sameRequest s t :=
  ⟨(congrArg State.reqOp h :), (congrArg State.reqId h :), (congrArg State.reqArg h :), (congrArg State.reqRlen h :),
    (congrArg State.reqHasData h :), (congrArg State.reqLockOp h :), (congrArg State.reqOld h :),
    (congrArg State.reqNew h :), (congrArg State.dbuf h :)⟩

end held

section follows

variable {s t : State} (h : Follows s t)
include h

/-- Only INIT's own exchanges write what INIT leaves behind (R160, R173). -/
theorem Follows.sameInit (hq : s.seq.op ≠ .init) : sameInit s t := by
  cases h
  case reply | status | next => exact ⟨rfl, rfl, rfl, rfl, rfl⟩
  case ready h | acmd41Again h _ => obtain h | h := h <;> simp [h, Seq.op] at hq
  case failed h _ _ _ _ => exact absurd h hq
  case cmd0Succeeded h | cmd0Again h _ | echoed h | ocrPre h | ocrPost h => simp [h, Seq.op] at hq

theorem Follows.sameResult (hp : t.phase ≠ .idle) : sameResult s t := by
  cases h
  case reply | status | failed | ocrPost => simp at hp
  all_goals exact ⟨rfl, rfl⟩

/-- An exchange that ends an operation delivers Ok, or one of INIT's two failures (R204). -/
theorem Follows.delivers (hp : t.phase = .idle) :
    t.resultDelivered = true ∧
      (t.result.kind = .ok ∨
        s.seq.op = .init ∧ (t.result.kind = .cardInitError ∨ t.result.kind = .unsupportedCard)) := by
  cases h
  case reply | status | ocrPost => exact ⟨rfl, .inl rfl⟩
  case failed h k n hk hn => exact ⟨rfl, .inr ⟨h, hk⟩⟩
  all_goals cases hp

/-- The reply is delivered at a host CMD or an ACMD's target command, and no payload elsewhere (R24, R143, R188). -/
theorem Follows.payload (hp : t.phase = .idle) :
    (s.seq = .cmd ∨ s.seq = .acmdTarget → t.result.payload = s.payload) ∧
      (t.result.kind ≠ .ok ∨ (s.seq ≠ .cmd ∧ s.seq ≠ .acmdTarget) → t.result.payload = []) := by
  cases h
  case reply h =>
    exact ⟨fun _ => rfl, fun hn => hn.elim (absurd rfl) fun ⟨hc, ht⟩ => h.elim (absurd · hc) (absurd · ht)⟩
  case status hc ht => exact ⟨fun h => h.elim (absurd · hc) (absurd · ht), fun _ => rfl⟩
  case ocrPost h => exact ⟨fun h' => by simp [h] at h', fun _ => rfl⟩
  case failed h _ _ _ _ => exact ⟨fun h' => by obtain h' | h' := h' <;> simp [h', Seq.op] at h, fun _ => rfl⟩
  all_goals cases hp

end follows

/-- Settles O50: an exchange holds INIT's registers, and a release or a request of another operation does not reach
them. -/
theorem onlyInitWritesInitState : Obligations.OnlyInitWritesInitState := by
  intro s t hI hr hstep
  cases stage_of_step hI.cs hr hstep with
  | waits => exact ⟨fun _ _ => ⟨rfl, rfl, rfl, rfl, rfl⟩, fun _ _ => ⟨rfl, rfl, rfl, rfl, rfl⟩⟩
  | request r rest _ hp hport he =>
    refine ⟨fun hne => absurd hp hne, fun _ hnot => ?_⟩
    have notInit : r.op ≠ 0b10 := hnot r rest hport
    obtain ⟨rfl, -⟩ | ⟨op, q, id, arg, rlen, data, rfl, -⟩ | ⟨rfl, hop⟩ | ⟨op, old, new, rfl, -⟩ := request_cases he
    case inr.inr.inl => exact absurd hop notInit
    all_goals exact ⟨rfl, rfl, rfl, rfl, rfl⟩
  | issue i f rlen hasData hp => exact ⟨fun _ _ => ⟨rfl, rfl, rfl, rfl, rfl⟩, fun h => by simp [hp] at h⟩
  | exchange _ hp h => exact ⟨fun _ _ => sameInit_of_held h.held, fun _ _ => sameInit_of_held h.held⟩
  | release _ hp h =>
    have busy : s.phase ≠ .idle := by rw [hp]; nofun
    exact ⟨fun _ hne => h.sameInit (by rwa [State.setCS_seq, hI.op busy]), fun hidle => absurd hidle busy⟩
  | releaseErr k info hp =>
    have busy : s.phase ≠ .idle := by rw [hp]; nofun
    refine ⟨fun _ hne => ?_, fun hidle => absurd hidle busy⟩
    rw [endWithError_other (s := s.setCS false) k info hne]
    exact ⟨rfl, rfl, rfl, rfl, rfl⟩

/-- Settles O51: RESULT is held through an exchange and at a frame's preparation, and the ways an operation ends deliver
one. -/
theorem resultWrittenAtTheEnd : Obligations.ResultWrittenAtTheEnd := by
  intro s t hI hr hstep
  cases stage_of_step hI.cs hr hstep with
  | waits hp => exact ⟨fun _ => ⟨rfl, rfl⟩, fun _ _ => ⟨rfl, rfl⟩, fun hne => absurd hp hne⟩
  | request r rest _ hp hport he =>
    refine ⟨fun hbusy => ?_, fun _ hnone => by simp [hport] at hnone, fun hne => absurd hp hne⟩
    obtain ⟨rfl, -⟩ | ⟨op, q, id, arg, rlen, data, rfl, -⟩ | ⟨rfl, -⟩ | ⟨op, old, new, rfl, -⟩ := request_cases he
    case inl => exact absurd rfl hbusy
    all_goals exact ⟨rfl, rfl⟩
  | issue i f rlen hasData => exact ⟨fun _ => ⟨rfl, rfl⟩, fun _ _ => ⟨rfl, rfl⟩, fun _ hidle => nomatch hidle⟩
  | exchange _ hp h =>
    have same := sameResult_of_held h.held
    exact ⟨fun _ => same, fun _ _ => same, fun _ hidle => by have := h.selected; rw [hidle] at this; cases this⟩
  | release _ hp h =>
    exact ⟨h.sameResult, fun hidle => by simp [hp] at hidle, fun _ hidle => (h.delivers hidle).1⟩
  | releaseErr k info hp =>
    exact ⟨fun hbusy => by simp at hbusy, fun hidle => by simp [hp] at hidle, fun _ _ => rfl⟩

/-- An exchange with data is CMD42's, or a host command's that supplies data (R81, R204). -/
theorem data_op {s : State} (hI : s.Inv) (hp : s.phase ≠ .idle) (hc : s.cs = true) (hd : s.xHasData = true) :
    (s.reqOp == .lockUnlock || (s.reqOp != .init && s.reqHasData)) = true := by
  rw [(hI.operands hc).2] at hd
  rw [← hI.op hp]
  cases hq : s.seq <;> simp [hq, exchangeHasData] at hd <;> simp [Seq.op, hd]

/-- What is raised inside an exchange is a kind the operation can end with (R204). -/
theorem raised_kind {s : State} {k : Kind} {info : Byte} (hI : s.Inv) (hp : s.phase = .xReleaseErr k info) :
    canEndWith s.reqOp s.reqHasData s.params.busyBound.isSome k = true ∧ k ≠ .refused := by
  have hop (hd : s.xHasData = true) := data_op hI (by rw [hp]; nofun) (by rw [hI.cs, hp]; rfl) hd
  obtain ⟨rfl, -⟩ | ⟨rfl, -, -, hd⟩ | ⟨rfl, -, hb, hd⟩ := hI.raised k info hp
  · exact ⟨rfl, nofun⟩
  · exact ⟨hop hd, nofun⟩
  · exact ⟨by simpa [canEndWith, Option.isSome_iff_ne_none] using ⟨by simpa using hop hd, hb⟩, nofun⟩

/-- Settles O52: a release delivers Ok or, in INIT, one of its failures; an error release what was raised; and a request
that ends at once is refused. -/
theorem resultKinds : Obligations.ResultKinds := by
  intro s t hI hr hstep hidle
  cases stage_of_step hI.cs hr hstep with
  | waits hp h => exact ⟨fun hne => absurd hp hne, fun r rest _ hport => by simp [h] at hport⟩
  | request r rest _ hp hport he =>
    refine ⟨fun hne => absurd hp hne, fun r' rest' _ hport' => ?_⟩
    obtain ⟨rfl, rfl⟩ := List.cons.inj (hport.symm.trans hport')
    obtain ⟨rfl, hop⟩ | ⟨op, q, id, arg, rlen, data, rfl, -⟩ | ⟨rfl, -⟩ | ⟨op, old, new, rfl, -⟩ := request_cases he
    case inl => exact ⟨rfl, hop⟩
    all_goals cases hidle
  | issue => cases hidle
  | exchange _ hp h => have := h.selected; rw [hidle] at this; cases this
  | release _ hp h =>
    refine ⟨fun hne => ?_, fun _ _ hp' => by simp [hp] at hp'⟩
    obtain ⟨-, hok | ⟨hop, hk⟩⟩ := h.delivers hidle
    · rw [hok]
      exact ⟨rfl, nofun⟩
    · rw [State.setCS_seq, hI.op hne] at hop
      obtain hk | hk := hk <;> rw [hk, hop] <;> exact ⟨rfl, nofun⟩
  | releaseErr k info hp => exact ⟨fun _ => raised_kind hI hp, fun _ _ hp' => by simp [hp] at hp'⟩

/-- Settles O56: the releases deliver the reply or nothing, whose length is that of the exchange's response; an error
release and a refusal deliver nothing. -/
theorem resultPayload : Obligations.ResultPayload := by
  intro s t hI hr hstep hidle
  cases stage_of_step hI.cs hr hstep with
  | waits hp h => exact ⟨fun hne => absurd hp hne, fun hne => absurd hp hne, fun _ hne => absurd h hne⟩
  | request r rest _ hp hport he =>
    refine ⟨fun hne => absurd hp hne, fun hne => absurd hp hne, fun _ _ => ?_⟩
    obtain ⟨rfl, -⟩ | ⟨op, q, id, arg, rlen, data, rfl, -⟩ | ⟨rfl, -⟩ | ⟨op, old, new, rfl, -⟩ := request_cases he
    case inl => rfl
    all_goals cases hidle
  | issue => cases hidle
  | exchange _ hp h => have := h.selected; rw [hidle] at this; cases this
  | release _ hp h =>
    obtain ⟨reply, none⟩ := h.payload hidle
    refine ⟨fun _ _ hq => ⟨reply hq, ?_⟩, fun _ hn => none hn, fun hp' => by simp [hp] at hp'⟩
    rw [reply hq, State.setCS_payload, hI.payload (.inr hp), (hI.operands (by rw [hI.cs, hp]; rfl)).1]
    obtain hq | hq := hq <;> rw [hq] <;> rfl
  | releaseErr k info hp =>
    have notOk : k ≠ .ok := by obtain ⟨rfl, -⟩ | ⟨rfl, -⟩ | ⟨rfl, -⟩ := hI.raised k info hp <;> nofun
    exact ⟨fun _ hok => absurd hok notOk, fun _ _ => rfl, fun hp' => by simp [hp] at hp'⟩

/-! No step of a state with the invariant stops (R29, R200). -/

/-- Every row of the table has a next state (log entry 22). -/
theorem exec_next (i : Instr) (s : State) : ∃ t, exec i s = .next t := by
  cases i with
  | hostLockunlock op old new =>
    simp only [exec, execHostLockunlock]
    split
    · exact ⟨_, rfl⟩
    · split <;> exact ⟨_, rfl⟩
  | _ => exact ⟨_, rfl⟩

theorem fetchedOr_ne_badFrame (d : Except DecodeError Instr) : fetchedOr d ≠ .badFrame := by
  cases d <;> nofun

/-- Only a frame that does not decode stops the engine (log entry 22). -/
theorem fetch_badFrame {s : State} (h : fetch s = .badFrame) :
    s.phase = .xAssert ∧ ∃ e, decodeFrame s.seq.own s.frameBuf = .error e := by
  cases hp : s.phase <;> simp only [fetch, hp] at h
  case xAssert =>
    refine ⟨rfl, ?_⟩
    split at h
    · cases h
    · exact ⟨_, ‹_›⟩
  case xPoll | dStart | dBusy => exact absurd h (fetchedOr_ne_badFrame _)
  case xTx | xCollect | dCrc | xRelease | xReleaseErr => cases h
  case idle =>
    split at h
    · cases h
    · exact absurd h (fetchedOr_ne_badFrame _)
  case dData =>
    split at h
    · split at h
      · cases h
      · exact absurd h (fetchedOr_ne_badFrame _)
    · cases h
  case dToken =>
    split at h
    · cases h
    · split at h
      · cases h
      · split at h
        · exact absurd h (fetchedOr_ne_badFrame _)
        · cases h

/-- Settles O47: the one refusal is of a FRAME_BUF that holds no frame, and the invariant has it hold the exchange's. -/
theorem invStateNeverStops : Obligations.InvStateNeverStops := by
  intro s hI
  unfold step
  split
  · exact ⟨_, rfl⟩
  · split
    · exact ⟨_, rfl⟩
    · split
      · exact exec_next _ s
      · exact ⟨_, rfl⟩
      · rename_i hf
        obtain ⟨hp, e, he⟩ := fetch_badFrame hf
        rw [hI.frame (by rw [hp]; rfl), decode_issued] at he
        cases he

end Sys2Proof.Machine

/-! A request that waits at the host port has no effect on the operation in progress (R241): every step of the engine
proper but the one at IDLE commutes with presenting other requests. -/

namespace Sys2Proof.Machine

/-- The state with other requests presented at the host port. -/
def State.present (q : List Request) (s : State) : State := { s with hostPort := q }

section present

variable (s : State) (q : List Request)

theorem present_ite {s q} {c : Prop} [Decidable c] {a b : State} (ha : a = s.present q) {t : State}
    (hb : b = t.present q) : (if c then a else b) = (if c then s else t).present q := by
  rw [ha, hb, apply_ite (State.present q)]

theorem present_recordInitFailure (k : Kind) (info : Byte) :
    (s.present q).recordInitFailure k info = (s.recordInitFailure k info).present q := by
  unfold State.recordInitFailure
  apply present_ite <;> rfl

theorem present_endWithError (k : Kind) (info : Byte) :
    (s.present q).endWithError k info = (s.endWithError k info).present q := by
  rw [State.endWithError, present_recordInitFailure]
  rfl

theorem present_raise (k : Kind) (info : Byte) : (s.present q).raise k info = (s.raise k info).present q := by
  unfold State.raise
  apply present_ite
  · rfl
  · exact present_endWithError ..

theorem present_countIdle : (s.present q).countIdle = s.countIdle.present q := by
  unfold State.countIdle
  exact present_ite (present_raise s.bumpIdle ..) rfl

theorem present_countBusy : (s.present q).countBusy = s.countBusy.present q := by
  unfold State.countBusy
  rw [show (s.present q).params = s.params from rfl]
  split
  · rfl
  · exact present_ite (present_raise s.bumpBusy ..) rfl

theorem present_afterPayloadByte : (s.present q).afterPayloadByte = s.afterPayloadByte.present q := by
  unfold State.afterPayloadByte
  apply present_ite <;> rfl

theorem present_statusReceived (b : Byte) : (s.present q).statusReceived b = (s.statusReceived b).present q := by
  unfold State.statusReceived
  apply present_ite <;> rfl

theorem present_sendOpByte (op : LockOp) : (s.present q).sendOpByte op = (s.sendOpByte op).present q := by
  unfold State.sendOpByte
  exact present_afterPayloadByte
    (((s.setBlockByte (op.byte s.params.opBytes)).xfer (op.byte s.params.opBytes)).setDptr 1) q

theorem present_txStep (i : Fin 6) : txStep i (s.present q) = (txStep i s).present q := by
  unfold txStep
  split <;> rfl

theorem present_collectStep : collectStep (s.present q) = (collectStep s).present q := by
  unfold collectStep
  apply present_ite <;> rfl

theorem present_dataStep : dataStep (s.present q) = (dataStep s).present q := by
  unfold dataStep
  rw [show (s.present q).dbuf = s.dbuf from rfl, show (s.present q).dptr = s.dptr from rfl]
  split
  · exact present_afterPayloadByte ((s.xfer _).setDptr _) q
  · rfl

theorem present_crcStep (k : Fin 2) : crcStep k (s.present q) = (crcStep k s).present q := by
  unfold crcStep
  split <;> rfl

theorem present_tokenStep : tokenStep (s.present q) = (tokenStep s).present q := by
  unfold tokenStep
  rw [show (s.present q).rbuf = s.rbuf from rfl]
  split
  · rfl
  · rename_i t rest _
    exact present_ite (present_raise (s.collectByte.setToken t) ..) rfl

theorem present_afterCmd0 : (s.present q).afterCmd0 = s.afterCmd0.present q := by
  unfold State.afterCmd0
  apply present_ite
  · rfl
  · apply present_ite
    · exact present_raise (s.setRetry (s.retryCnt + 1)) ..
    · rfl

theorem present_afterCmd8 : (s.present q).afterCmd8 = s.afterCmd8.present q := by
  unfold State.afterCmd8
  apply present_ite
  · rfl
  · exact present_raise ..

theorem present_afterAcmd41 : (s.present q).afterAcmd41 = s.afterAcmd41.present q := by
  unfold State.afterAcmd41
  apply present_ite
  · rfl
  · apply present_ite
    · exact present_raise (s.setRetry (s.retryCnt + 1)) ..
    · rfl

theorem present_continueAfter : (s.present q).continueAfter = s.continueAfter.present q := by
  unfold State.continueAfter
  rw [show (s.present q).seq = s.seq from rfl]
  cases s.seq
  case cmd | acmdTarget | initCmd58Pre | initCmd58Post | lockCmd42 | lockAcmd13 => rfl
  case acmdPrefix | lockCmd16 | lockCmd55 => apply present_ite <;> rfl
  case initCmd0 => exact present_afterCmd0 s q
  case initCmd8 => exact present_afterCmd8 s q
  case initAcmd41 => exact present_afterAcmd41 s q
  case initCmd55 =>
    apply present_ite
    · exact present_afterAcmd41 s q
    · rfl

theorem present_sequence : sequence (s.present q) = (sequence s).present q := by
  unfold sequence
  rw [show (s.present q).phase = s.phase from rfl]
  cases s.phase
  case idle | xAssert | xPoll | dStart | dBusy => rfl
  case xTx i => exact present_txStep s q i
  case xCollect => exact present_collectStep s q
  case dData => exact present_dataStep s q
  case dCrc k => exact present_crcStep s q k
  case dToken => exact present_tokenStep s q
  case xRelease => exact present_continueAfter (s.setCS false) q
  case xReleaseErr k info => exact present_endWithError (s.setCS false) q k info

theorem present_fetch (hp : s.phase ≠ .idle) : fetch (s.present q) = fetch s := by
  unfold fetch
  rw [show (s.present q).phase = s.phase from rfl]
  cases h : s.phase
  case idle => exact absurd h hp
  all_goals rfl

theorem present_exec {i : Instr} (hi : i.slot ≠ .hostPort) {t : State} (he : exec i s = .next t) :
    exec i (s.present q) = .next (t.present q) := by
  cases i
  case hostCmd | hostAcmd | hostInit | hostLockunlock => exact absurd rfl hi
  case idleByte => exact Host.Outcome.next.inj he ▸ congrArg _ (present_countIdle (s.xferAs _ _) q)
  case busyByte => exact Host.Outcome.next.inj he ▸ congrArg _ (present_countBusy (s.xferAs _ _) q)
  case status b => exact Host.Outcome.next.inj he ▸ congrArg _ (present_statusReceived s q b)
  case startToken =>
    exact Host.Outcome.next.inj he ▸ congrArg _ (present_afterPayloadByte ((s.xfer Config.startToken).setDptr 0) q)
  case opUnlock | opSetpassword | opClearpassword | opLocknow | opForceerase =>
    exact Host.Outcome.next.inj he ▸ congrArg _ (present_sendOpByte s q _)
  all_goals exact Host.Outcome.next.inj he ▸ rfl

end present

/-- Only the host port's slot holds a request. -/
theorem decode_slot {slot : Slot} {c : Code} {i : Instr} (h : decode slot c = .ok i) (hs : slot ≠ .hostPort) :
    i.slot ≠ .hostPort := by
  cases slot <;> cases c <;> simp only [decode, reduceCtorEq] at h
  case hostPort.request => exact absurd rfl hs
  case frame.frame own f =>
    have word := encodeDecodeFrame own f i h
    intro hi
    cases i <;> simp [Instr.slot, encode] at hi word
  case response.byte b =>
    cases h
    unfold decodeResponse
    split <;> nofun
  case token.byte b =>
    unfold decodeToken at h
    split at h <;> cases h
    nofun
  case busy.byte b =>
    unfold decodeBusy at h
    split at h <;> cases h
    nofun
  case packetStart.byte b =>
    split at h <;> cases h
    nofun
  case opByte.byte tbl b =>
    unfold decodeOpByte at h
    split at h <;> cases h
    rename_i op _
    cases op <;> nofun

theorem fetchedOr_instr {d : Except DecodeError Instr} {i : Instr} (h : fetchedOr d = .instr i) : d = .ok i := by
  cases d <;> cases h
  rfl

/-- During an operation the row that selects the step stands in a slot other than the host port's. -/
theorem fetch_decodes {s : State} {i : Instr} (h : fetch s = .instr i) (hp : s.phase ≠ .idle) :
    ∃ slot c, decode slot c = .ok i ∧ slot ≠ .hostPort := by
  cases hs : s.phase <;> simp only [fetch, hs, reduceCtorEq] at h
  case idle => exact absurd hs hp
  case xAssert =>
    split at h <;> cases h
    rename_i hd
    exact ⟨_, _, hd, nofun⟩
  case xPoll | dStart | dBusy => exact ⟨_, _, fetchedOr_instr h, nofun⟩
  case dData =>
    split at h
    · split at h
      · cases h
      · exact ⟨_, _, fetchedOr_instr h, nofun⟩
    · cases h
  case dToken =>
    split at h
    · cases h
      exact ⟨.response, .byte Config.idleByte, rfl, nofun⟩
    · split at h
      · cases h
      · split at h
        · exact ⟨_, _, fetchedOr_instr h, nofun⟩
        · cases h

theorem step_waiting {s : State} (hr : s.resetPin = false) (hw : s.waiting = true) : step s = .next s := by
  simp [step, hr, hw]

theorem step_instr {s : State} {i : Instr} (hr : s.resetPin = false) (hw : s.waiting = false)
    (h : fetch s = .instr i) : step s = exec i s := by
  simp [step, hr, hw, h]

theorem step_sequencer {s : State} (hr : s.resetPin = false) (hw : s.waiting = false)
    (h : fetch s = .sequencer) : step s = .next (sequence s) := by
  simp [step, hr, hw, h]

/-- During an operation a step does the same whatever requests wait at the host port (R241). -/
theorem step_present {s t : State} (q : List Request) (hr : s.resetPin = false) (hp : s.phase ≠ .idle)
    (h : step s = .next t) : step (s.present q) = .next (t.present q) := by
  obtain ⟨hr', -⟩ | ⟨-, hw, rfl⟩ | ⟨-, hw, ⟨i, hi, he⟩ | ⟨hs, rfl⟩⟩ := step_cases h
  · simp [hr] at hr'
  · exact step_waiting (s := t.present q) hr hw
  · obtain ⟨slot, c, hd, hslot⟩ := fetch_decodes hi hp
    exact (step_instr (s := s.present q) hr hw ((present_fetch s q hp).trans hi)).trans
      (present_exec s q (decode_slot hd hslot) he)
  · exact (step_sequencer (s := s.present q) hr hw ((present_fetch s q hp).trans hs)).trans
      (congrArg _ (present_sequence s q))

/-- What follows an exchange keeps the request and takes none from the port (R25). -/
theorem Follows.sameRequest {s t : State} (h : Follows s t) : sameRequest s t ∧ t.hostPort = s.hostPort := by
  cases h
  case failed => simp [Machine.sameRequest]
  all_goals exact ⟨⟨rfl, rfl, rfl, rfl, rfl, rfl, rfl, rfl, rfl⟩, rfl⟩

/-- Settles O49: an exchange and what follows it hold the request registers, and commute with presenting other
requests. -/
theorem requestIsStable : Obligations.RequestIsStable := by
  intro s t hI hr hp hstep
  have kept : sameRequest s t ∧ t.hostPort = s.hostPort := by
    cases stage_of_step hI.cs hr hstep with
    | waits hp' => exact absurd hp' hp
    | request _ _ _ hp' => exact absurd hp' hp
    | issue => exact ⟨⟨rfl, rfl, rfl, rfl, rfl, rfl, rfl, rfl, rfl⟩, rfl⟩
    | exchange _ _ h => exact ⟨sameRequest_of_held h.held, (congrArg State.hostPort h.held :)⟩
    | release _ _ h => exact h.sameRequest
    | releaseErr k info => simp [sameRequest]
  exact ⟨kept.1, kept.2, fun q => step_present q hr hp hstep⟩

end Sys2Proof.Machine

/-! The label table (R30): the event a step makes at each label, and the labels it goes to. -/

namespace Sys2Proof.Machine

section updates

variable {s : State}

@[simp] theorem State.afterPayloadByte_trace : s.afterPayloadByte.trace = s.trace := by
  unfold State.afterPayloadByte
  split <;> rfl

@[simp] theorem State.afterPayloadByte_dptr : s.afterPayloadByte.dptr = s.dptr := by
  unfold State.afterPayloadByte
  split <;> rfl

theorem afterPayloadByte_phase :
    s.afterPayloadByte.phase = if s.dptr < s.dbuf.length then .dData else .dCrc 0 := by
  unfold State.afterPayloadByte
  split <;> rfl

/-- A poll that counts an idle byte stays at its label, or raises the timeout (R120, R138). -/
theorem countIdle_stays (hc : s.cs = true) :
    s.countIdle.trace = s.trace ∧ (s.countIdle.phase = s.phase ∨ s.countIdle.phase.isReleaseErr = true) := by
  by_cases hn : s.idleCnt + 1 = Config.maxIdlePolls
  · rw [countIdle_last hn hc]
    exact ⟨rfl, .inr rfl⟩
  · rw [countIdle_below hn]
    exact ⟨rfl, .inl rfl⟩

/-- The busy wait that counts a busy byte stays at its label, or raises CardUnresponsive (R126). -/
theorem countBusy_stays (hc : s.cs = true) :
    s.countBusy.trace = s.trace ∧ (s.countBusy.phase = s.phase ∨ s.countBusy.phase.isReleaseErr = true) := by
  cases hb : s.params.busyBound with
  | none =>
    rw [countBusy_unbounded hb]
    exact ⟨rfl, .inl rfl⟩
  | some n =>
    by_cases hn : s.busyCnt + 1 = n
    · rw [countBusy_last hb hn hc]
      exact ⟨rfl, .inr rfl⟩
    · rw [countBusy_below hb hn]
      exact ⟨rfl, .inl rfl⟩

/-- A status goes to the collect phase, or with no reply byte left to the response's end (R120, R121, R140, R141). -/
theorem statusReceived_row (b : Byte) :
    (s.statusReceived b).trace = s.trace ++ [.xfer 0xFF b] ∧
      ((s.statusReceived b).phase = .xCollect ∨
        s.xRlen = 0 ∧ (s.statusReceived b).phase =
          if !(s.statusReceived b).error && s.xHasData then .dStart else .xRelease) := by
  unfold State.statusReceived
  split
  · rename_i h0
    exact ⟨rfl, .inr ⟨BitVec.eq_of_toNat_eq h0, rfl⟩⟩
  · exact ⟨rfl, .inl rfl⟩

end updates

/-- A step makes the label's event and goes to a label of the third column (R30). -/
def State.rowTo (s t : State) : Prop := t.trace = s.trace ++ s.nextEvents ∧ s.phase.leavesTo t.phase = true

theorem nextEvents_transfer {s : State} (hp : s.phase.transfers = true) :
    s.nextEvents = [.xfer s.transmits s.rxByte] := by
  unfold State.nextEvents
  cases h : s.phase <;> simp only [h, Phase.transfers, Bool.false_eq_true] at hp ⊢

section rows

variable {s t : State} {p : Phase}

theorem rowTo_of_event {e : Event} (he : s.nextEvents = [e]) (ht : t.trace = s.trace ++ [e])
    (hl : s.phase.leavesTo t.phase = true) : s.rowTo t :=
  ⟨by rw [ht, he], hl⟩

theorem rowTo_of_xfer {b : Byte} (hp : s.phase = p) (hx : p.transfers = true) (hb : s.transmits = b)
    (ht : t.trace = s.trace ++ [.xfer b s.rxByte]) (hl : p.leavesTo t.phase = true) : s.rowTo t := by
  subst hp
  exact rowTo_of_event ((nextEvents_transfer hx).trans (by rw [hb])) ht hl

theorem row_transmit {i : Fin 6} (hp : s.phase = .xTx i) : s.rowTo (txStep i s) := by
  have hb : s.transmits = frameByte s.frameBuf i := by rw [State.transmits, hp]
  unfold txStep
  split <;> (rename_i h; exact rowTo_of_xfer hp rfl hb rfl (by simp [Phase.leavesTo, h]))

/-- After payload byte `n` the next one, or the trailer, follows (R146, R147). -/
theorem row_payloadByte {b : Byte} (hp : s.phase = p) (hx : p.transfers = true) (hb : s.transmits = b) (n : Nat)
    (hl : p.leavesTo ((s.xfer b).setDptr n).afterPayloadByte.phase = true) :
    s.rowTo ((s.xfer b).setDptr n).afterPayloadByte :=
  rowTo_of_xfer hp hx hb (by rw [State.afterPayloadByte_trace]; rfl) hl

theorem row_crc {k : Fin 2} (hp : s.phase = .dCrc k) : s.rowTo (crcStep k s) := by
  unfold crcStep
  split <;> exact rowTo_of_xfer hp rfl (by rw [State.transmits, hp]; rfl) rfl rfl

theorem row_busyEnd (hp : s.phase = .dBusy) : s.rowTo (busyEndStep s) :=
  rowTo_of_xfer hp rfl (by rw [State.transmits, hp]; rfl) rfl rfl

theorem row_status (hp : s.phase = .xPoll) : s.rowTo (s.statusReceived s.rxByte) := by
  obtain ⟨ht, hq⟩ := statusReceived_row (s := s) s.rxByte
  refine rowTo_of_xfer hp rfl (by rw [State.transmits, hp]) ht ?_
  obtain hq | ⟨-, hq⟩ := hq <;> rw [hq]
  · rfl
  · split <;> rfl

theorem row_collect (hp : s.phase = .xCollect) : s.rowTo (collectStep s) := by
  have hb : s.transmits = Config.fill := by rw [State.transmits, hp]; rfl
  unfold collectStep
  split
  · refine rowTo_of_xfer hp rfl hb rfl ?_
    rw [State.responseDone_phase]
    split <;> rfl
  · exact rowTo_of_xfer hp rfl hb rfl (by simp [hp, Phase.leavesTo])

theorem row_data {b : Byte} (hp : s.phase = .dData) (hb : s.dbuf[s.dptr]? = some b) :
    s.rowTo ((s.xfer b).setDptr (s.dptr + 1)).afterPayloadByte := by
  refine row_payloadByte hp rfl (by rw [State.transmits, hp]; simp [hb]) _ ?_
  rw [afterPayloadByte_phase]
  split <;> rfl

theorem row_tokenAccept (hp : s.phase = .dToken) (u : BitVec 3) : s.rowTo (s.tokenAccept u) :=
  rowTo_of_xfer hp rfl (by rw [State.transmits, hp]; rfl) rfl rfl

variable (hI : s.Inv)
include hI

theorem row_start (hp : s.phase = .dStart) : s.rowTo ((s.xfer Config.startToken).setDptr 0).afterPayloadByte := by
  have first : 0 < s.dbuf.length := List.length_pos_iff.mpr (hI.dbuf_ne (by rw [hp]; rfl))
  refine row_payloadByte hp rfl (by rw [State.transmits, hp]; rfl) 0 ?_
  rw [afterPayloadByte_phase]
  exact if_pos first ▸ rfl

theorem row_idleByte (hp : s.phase = .xPoll ∨ s.phase = .dToken) (h : s.rxByte = Config.idleByte) :
    s.rowTo (s.xferAs Config.fill Config.idleByte).countIdle := by
  have hc : s.cs = true := by obtain hp | hp := hp <;> rw [hI.cs, hp] <;> rfl
  obtain ⟨ht, hl⟩ := countIdle_stays (s := s.xferAs Config.fill Config.idleByte) hc
  rw [← h] at ht hl ⊢
  obtain hp | hp := hp <;>
    exact rowTo_of_xfer hp rfl (by rw [State.transmits, hp]; rfl) ht
      (by obtain hl | hl := hl <;> simp [Phase.leavesTo, hl, hp])

theorem row_busyByte (hp : s.phase = .dBusy) (h : s.rxByte = Config.busyByte) :
    s.rowTo (s.xferAs Config.fill Config.busyByte).countBusy := by
  have hc : s.cs = true := by rw [hI.cs, hp]; rfl
  obtain ⟨ht, hl⟩ := countBusy_stays (s := s.xferAs Config.fill Config.busyByte) hc
  rw [← h] at ht hl ⊢
  exact rowTo_of_xfer hp rfl (by rw [State.transmits, hp]; rfl) ht
    (by obtain hl | hl := hl <;> simp [Phase.leavesTo, hl, hp])

theorem row_token (hp : s.phase = .dToken) : s.rowTo (tokenStep s) := by
  have hc : s.cs = true := by rw [hI.cs, hp]; rfl
  have hb : s.transmits = Config.fill := by rw [State.transmits, hp]; rfl
  unfold tokenStep
  split
  · exact rowTo_of_xfer hp rfl hb rfl (by simp [hp, Phase.leavesTo])
  · split
    · rw [raise_selected _ _ (by simp [hc])]
      exact rowTo_of_xfer hp rfl hb rfl rfl
    · exact rowTo_of_xfer hp rfl hb rfl (by simp [hp, Phase.leavesTo])

/-- Every step of the engine proper follows its label's row of the table. -/
theorem Active.row (h : Active s t) : s.rowTo t := by
  cases h with
  | idle hp => exact ⟨by simp [State.nextEvents, hp], by simp [hp, Phase.leavesTo]⟩
  | request r rest _ hp _ he =>
    obtain ⟨-, ht, hq⟩ := request_silent he
    exact ⟨by simp [State.nextEvents, hp, ht], by obtain hq | hq := hq <;> simp [hp, hq, Phase.leavesTo]⟩
  | issue i _ hp h he =>
    obtain ⟨f, rlen, hasData, rfl⟩ := issue_cases h he
    exact rowTo_of_event (by rw [State.nextEvents, hp]) rfl (by rw [hp]; rfl)
  | transmit i hp => exact row_transmit hp
  | pollIdle hp h => exact row_idleByte hI (.inl hp) h
  | pollStatus hp => exact row_status hp
  | collect hp => exact row_collect hp
  | start hp => exact row_start hI hp
  | opByte op b rest hp _ hd hb h =>
    rw [sendOpByte_eq hb h]
    have at0 : s.dbuf[s.dptr]? = some b := by rw [hd, hb]; rfl
    simpa [hd] using row_data hp at0
  | data hp =>
    have inside := List.getElem?_eq_getElem (hI.dptr hp)
    exact dataStep_eq inside ▸ row_data hp inside
  | crc k hp => exact row_crc hp
  | tokenIdle hp h =>
    have h' : s.rxByte = Config.idleByte := by simp_all [State.tokenIdle]
    exact row_idleByte hI (.inr hp) h'
  | tokenByte hp => exact row_token hI hp
  | tokenAccept t _ hp => exact row_tokenAccept hp _
  | busy hp h => exact row_busyByte hI hp h
  | busyEnd hp => exact row_busyEnd hp
  | release hp =>
    obtain ⟨-, ht, hq⟩ := (follows_continueAfter (s := s.setCS false) rfl).silent
    exact rowTo_of_event (by rw [State.nextEvents, hp]) ht
      (by rw [hp, releaseStep]; obtain hq | hq := hq <;> rw [hq] <;> rfl)
  | releaseErr k info hp =>
    exact rowTo_of_event (e := .cs false) (by rw [State.nextEvents, hp]) (by simp [releaseErrStep])
      (by simp [hp, releaseErrStep, Phase.leavesTo])

end rows

/-- X_POLL leaves the poll without an error only at a status, and past X_COLLECT only where no reply byte is left to
collect (R120, R121, R140). -/
theorem poll_leaves {s t : State} (h : Active s t) (hc : s.cs = true) (hp : s.phase = .xPoll)
    (ht : t.phase = .xRelease ∨ t.phase = .dStart) :
    s.xRlen = 0 ∧ (t.phase = .dStart ↔ t.error = false ∧ s.xHasData = true) := by
  cases h
  case pollIdle =>
    obtain ⟨-, hl⟩ := countIdle_stays (s := s.xferAs Config.fill Config.idleByte) hc
    rw [State.xferAs_phase, hp] at hl
    obtain hl | hl := hl <;> obtain ht | ht := ht <;> rw [ht] at hl <;> cases hl
  case pollStatus =>
    obtain ⟨-, hl | hl⟩ := statusReceived_row (s := s) s.rxByte
    · obtain ht | ht := ht <;> rw [ht] at hl <;> cases hl
    · refine ⟨hl.1, ?_⟩
      rw [hl.2, ite_eq_left_iff]
      simp
  all_goals simp_all

/-- Settles O48: every step follows its label's row; the clauses about DPTR are the payload byte's, and those about
X_POLL the status's. -/
theorem phaseTable : Obligations.PhaseTable := by
  intro s t hI hr hstep
  have reset : s.resetPin = false := by simp_all [State.running]
  have awake : s.waiting = false := by simp_all [State.running, State.waiting]
  have h := active_of_step reset awake hstep
  have selected (hp : s.phase = .xPoll) : s.cs = true := by rw [hI.cs, hp]; rfl
  obtain ⟨ht, hl⟩ := h.row hI
  refine ⟨ht, hl, fun hp => ?_, fun hp => ?_, fun hp hq => ?_, fun hp hq => ?_⟩
  · obtain rfl := Host.Outcome.next.inj ((step_start hr hp).symm.trans hstep)
    simp
  · have inside := List.getElem?_eq_getElem (hI.dptr hp)
    obtain rfl := Host.Outcome.next.inj ((step_data hr hp inside).symm.trans hstep)
    refine ⟨by simp, ?_⟩
    rw [afterPayloadByte_phase, ite_eq_left_iff]
    simp
  · obtain ⟨h0, he⟩ := poll_leaves h (selected hp) hp (.inl hq)
    refine ⟨h0, ?_⟩
    rw [hq] at he
    cases herr : t.error with
    | true => exact .inl rfl
    | false => exact .inr (Bool.eq_false_iff.mpr fun hd => nomatch he.mpr ⟨herr, hd⟩)
  · obtain ⟨h0, he⟩ := poll_leaves h (selected hp) hp (.inr hq)
    exact ⟨h0, he.mp hq⟩

end Sys2Proof.Machine

/-! Runs of an exchange over bytes the transport supplies: the frame, the data packet, the token, and a host CMD from
its frame to its result (R135 to R152). -/

namespace Sys2Proof.Machine

/-- Settles O25: `steps_frame`, written out. -/
theorem frameIsTransmitted : Obligations.FrameIsTransmitted :=
  fun _ _ _ hr hp hl hx => steps_frame hr hp hl hx

/-- The state without the record of its events. -/
def State.untraced (s : State) : State := { s with trace := [] }

theorem afterPayloadByte_untraced (s : State) : s.afterPayloadByte.untraced = s.untraced.afterPayloadByte := by
  unfold State.afterPayloadByte
  rw [apply_ite State.untraced]
  rfl

/-- Settles O53: where the engine transmits a byte of its own, the received one is in the trace alone. -/
theorem receivedBytesDiscarded : Obligations.ReceivedBytesDiscarded := by
  intro s a b rest hI hr hp
  have payload (t : Byte) (n : Nat) :
      (((State.xfer t { s with rx := a :: rest }).setDptr n).afterPayloadByte).untraced =
      (((State.xfer t { s with rx := b :: rest }).setDptr n).afterPayloadByte).untraced := by
    rw [afterPayloadByte_untraced, afterPayloadByte_untraced]
    rfl
  obtain ⟨i, hp⟩ | hp | hp | ⟨k, hp⟩ := hp
  · refine ⟨_, _, step_transmit (s := { s with rx := a :: rest }) hr hp,
      step_transmit (s := { s with rx := b :: rest }) hr hp, ?_⟩
    unfold txStep
    split <;> rfl
  · exact ⟨_, _, step_start (s := { s with rx := a :: rest }) hr hp,
      step_start (s := { s with rx := b :: rest }) hr hp, payload 0xFE 0⟩
  · have inside := List.getElem?_eq_getElem (hI.dptr hp)
    exact ⟨_, _, step_data (s := { s with rx := a :: rest }) hr hp inside,
      step_data (s := { s with rx := b :: rest }) hr hp inside, payload _ _⟩
  · refine ⟨_, _, step_crc (s := { s with rx := a :: rest }) hr hp,
      step_crc (s := { s with rx := b :: rest }) hr hp, ?_⟩
    unfold crcStep
    split <;> rfl

theorem length_of_drop {l left : List Byte} {n : Nat} {b : Byte} (h : l.drop n = b :: left) :
    n + left.length + 1 = l.length := by
  have := congrArg List.length h
  rw [List.length_drop, List.length_cons] at this
  omega

theorem transfer_payloadByte (s : State) (b r : Byte) (n : Nat) (sent got rest' rest : List Byte) (m : Nat) :
    (((((s.transfer [b] [r] rest').setDptr n).goto .dData).transfer sent got rest).setDptr m).beginTrailer =
      ((s.transfer (b :: sent) (r :: got) rest).setDptr m).beginTrailer := by
  simp [State.transfer, State.setDptr, State.goto, State.beginTrailer]

section packet

variable {s : State} {got sent left rest : List Byte} {b c r : Byte} (hr : s.running = true)
include hr

theorem step_payload (hp : s.phase = .dData) (hd : s.dbuf.drop s.dptr = b :: left) (hx : s.rx = r :: rest) :
    step s = .next ((s.transfer [b] [r] rest).setDptr (s.dptr + 1)).afterPayloadByte := by
  have here : s.dbuf[s.dptr]? = some b := by rw [← List.head?_drop, hd, List.head?_cons]
  rw [step_data hr hp here, xfer_eq_transfer _ hx]

/-- From DPTR on, each payload byte left is one transfer, and the trailer is the payload's (R146, R147). -/
theorem steps_payload (hp : s.phase = .dData) (hd : s.dbuf.drop s.dptr = b :: left) (hl : got.length = left.length)
    (hx : s.rx = r :: got ++ rest) :
    steps (left.length + 1) s =
      .next ((s.transfer (b :: left) (r :: got) rest).setDptr s.dbuf.length).beginTrailer := by
  induction left generalizing s b r got with
  | nil =>
    obtain rfl := List.length_eq_zero_iff.mp hl
    have last : s.dptr + 1 = s.dbuf.length := length_of_drop hd
    refine (steps_succ (step_payload (rest := rest) hr hp hd hx)).trans ?_
    rw [← last, afterPayloadByte_last (by simp [State.transfer, last])]
    rfl
  | cons c left ih =>
    obtain ⟨q, got, rfl⟩ := List.exists_cons_of_length_eq_add_one hl
    have next : s.dbuf.drop (s.dptr + 1) = c :: left := by rw [← List.tail_drop, hd, List.tail_cons]
    have more : s.dptr + 1 < s.dbuf.length := by
      have := length_of_drop next
      omega
    refine (steps_succ (step_payload (rest := q :: got ++ rest) hr hp hd hx)).trans ?_
    rw [afterPayloadByte_more more]
    have tail := ih (s := ((s.transfer [b] [r] (q :: got ++ rest)).setDptr (s.dptr + 1)).goto .dData) hr rfl next
      (Nat.succ.inj hl) rfl
    rwa [transfer_payloadByte] at tail

/-- The start token and the payload (R145, R146). -/
theorem steps_packetBody (hp : s.phase = .dStart) (hne : s.dbuf ≠ []) (hl : got.length = s.dbuf.length)
    (hx : s.rx = r :: got ++ rest) :
    steps (s.dbuf.length + 1) s =
      .next ((s.transfer (0xFE :: s.dbuf) (r :: got) rest).setDptr s.dbuf.length).beginTrailer := by
  obtain ⟨b, left, hb⟩ := List.exists_cons_of_ne_nil hne
  obtain ⟨q, got, rfl⟩ := List.exists_cons_of_length_eq_add_one (hl.trans (congrArg List.length hb))
  have first : step s = .next (((s.transfer [0xFE] [r] (q :: got ++ rest)).setDptr 0).goto .dData) := by
    rw [step_start hr hp, xfer_eq_transfer _ hx]
    exact congrArg _ (afterPayloadByte_more (List.length_pos_iff.mpr hne))
  have body := steps_payload (s := ((s.transfer [0xFE] [r] (q :: got ++ rest)).setDptr 0).goto .dData) (b := b) (r := q)
    (rest := rest) (got := got) (left := left) hr rfl hb (by simpa [hb] using hl) rfl
  rw [steps_succ first, show s.dbuf.length = left.length + 1 from congrArg List.length hb, body]
  simp [State.transfer, State.setDptr, State.goto, State.beginTrailer, hb]

/-- The trailer, high byte first (R147, R148). -/
theorem steps_trailer (hp : s.phase = .dCrc 0) (hx : s.rx = b :: c :: rest) :
    steps 2 s = .next ((s.transfer [trailerHigh s.crc16, trailerLow s.crc16] [b, c] rest).beginPoll .dToken) := by
  have high : step s = .next ((s.transfer [trailerHigh s.crc16] [b] (c :: rest)).goto (.dCrc 1)) := by
    rw [step_crc hr hp, crcStep, xfer_eq_transfer _ hx]
  have low := step_crc (s := (s.transfer [trailerHigh s.crc16] [b] (c :: rest)).goto (.dCrc 1)) hr rfl
  rw [crcStep, xfer_eq_transfer _ rfl] at low
  refine (steps_succ high).trans ((steps_succ low).trans ?_)
  simp [steps, State.transfer, State.goto, State.beginPoll]

end packet

/-- Settles O28: the start token with the payload, and then the trailer, which is the payload's. -/
theorem dataPacketIsTransmitted : Obligations.DataPacketIsTransmitted := by
  intro s got rest hr hp hne hl hx
  obtain ⟨r, got, rfl⟩ := List.exists_cons_of_length_eq_add_one hl
  obtain ⟨b, c, hbc⟩ : ∃ b c, got.drop s.dbuf.length = [b, c] := by
    refine List.length_eq_two.mp ?_
    simp only [List.length_cons, List.length_drop] at hl ⊢
    omega
  have hgot : got = got.take s.dbuf.length ++ [b, c] := by rw [← hbc, List.take_append_drop]
  have htake : (got.take s.dbuf.length).length = s.dbuf.length := by
    simp only [List.length_cons, List.length_take] at hl ⊢
    omega
  generalize got.take s.dbuf.length = body at hgot htake
  subst hgot
  rw [← List.cons_append, List.append_assoc] at hx
  have packet := steps_packetBody hr hp hne htake hx
  have trailer := steps_trailer (s := ((s.transfer (0xFE :: s.dbuf) (r :: body) ([b, c] ++ rest)).setDptr
    s.dbuf.length).beginTrailer) hr rfl rfl
  refine (steps_append (n := 2) packet).trans (trailer.trans ?_)
  have zip (high low : Byte) : List.zipWith Event.xfer (0xFE :: s.dbuf ++ [high, low]) (r :: (body ++ [b, c])) =
      List.zipWith .xfer (0xFE :: s.dbuf) (r :: body) ++ [.xfer high b, .xfer low c] :=
    List.zipWith_append (l₁ := 0xFE :: s.dbuf) (l₂ := r :: body) (congrArg Nat.succ htake.symm)
  rw [zip, ← List.append_assoc]
  rfl

end Sys2Proof.Machine

/-! The token read (R148, R149): through the poller after up to seven idle bytes, or raw, its four bytes and the check
of the first. -/

namespace Sys2Proof.Machine

section token

variable {s : State} {i : Nat} {tok a b c : Byte} {rest : List Byte} (hr : s.running = true)
include hr

theorem step_tokenStart (hp : s.phase = .dToken) (hb : s.rbuf = [])
    (hi : s.params.drtViaPoller = true → tok ≠ 0xFF) (hx : s.rx = tok :: rest) :
    step s = .next ((s.receive [tok] rest).setReply [tok] 3) := by
  have notIdle : s.tokenIdle = false := by
    cases hv : s.params.drtViaPoller with
    | false => simp [State.tokenIdle, hv]
    | true => simpa [State.tokenIdle, hv, hb, rxByte_listed hx, Config.idleByte] using hi hv
  rw [step_tokenFirst hr hp notIdle hb, tokenStep, hb, rxByte_listed hx, Config.fill, xfer_eq_receive hx]
  rfl

/-- A byte of the token between its first and its last, `n + 2` being left (R148). -/
theorem step_tokenNext {got : List Byte} {n : Nat} (hp : s.phase = .dToken) (hne : got ≠ []) :
    step ((s.receive got (a :: rest)).setReply got (n + 2)) =
      .next ((s.receive (got ++ [a]) rest).setReply (got ++ [a]) (n + 1)) := by
  rw [step_tokenMore (s := (s.receive got (a :: rest)).setReply got (n + 2)) hr hp hne
    (Nat.lt_add_left n (Nat.lt_succ_self 1)), collectByte_eq_receive rfl]
  simp [State.receive, State.setReply]

/-- The token's first three bytes (R148). -/
theorem steps_tokenRead (hp : s.phase = .dToken) (hb : s.rbuf = []) (hi : s.params.drtViaPoller = true → tok ≠ 0xFF)
    (hx : s.rx = tok :: a :: b :: rest) :
    steps 3 s = .next ((s.receive [tok, a, b] rest).setReply [tok, a, b] 1) :=
  steps_snoc (steps_snoc (steps_succ (step_tokenStart hr hp hb hi hx))
    (step_tokenNext hr hp (List.cons_ne_nil _ _))) (step_tokenNext hr hp (List.cons_ne_nil _ _))

variable (hp : s.phase = .dToken) (hb : s.rbuf = [tok, a, b]) (hl : s.rleft = 1) (hx : s.rx = c :: rest)
include hp hb hl hx

/-- The fourth byte after an accepted first one (R149, R150). -/
theorem step_tokenAccepted (ha : tok &&& 0x1F = 0x05) :
    step s = .next ((((s.receive [c] rest).setReply [tok, a, b, c] 0).setToken tok).beginBusy) := by
  have accepted := (tokenAccepted_iff tok).mpr ha
  rw [step_tokenAccept hr hp hb (Nat.le_of_eq hl) accepted, State.tokenAccept, accepted_token tok accepted, hb,
    rxByte_listed hx, Config.fill, xfer_eq_receive hx]
  rfl

/-- The fourth byte after any other first one (R149). -/
theorem step_tokenRejected (hc : s.cs = true) (ha : tok &&& 0x1F ≠ 0x05) :
    step s = .next ((((s.receive [c] rest).setReply [tok, a, b, c] 0).setToken tok).goto
      (.xReleaseErr .dataWriteError tok)) := by
  have rejected : tokenAccepted tok = false := Bool.eq_false_iff.mpr (mt (tokenAccepted_iff tok).mp ha)
  rw [step_tokenReject hr hp hb (Nat.le_of_eq hl) rejected, raise_selected _ _ (by simpa using hc),
    collectByte_eq_receive hx, hb, hl]
  rfl

end token

/-- The idle bytes before the token: up to seven through the poller, none where it is read raw (R148). -/
theorem steps_tokenIdle {s : State} {i : Nat} {rest : List Byte} (hr : s.running = true) (hp : s.phase = .dToken)
    (hb : s.rbuf = []) (hcnt : s.idleCnt = 0) (hx : s.rx = List.replicate i 0xFF ++ rest)
    (hi : s.params.drtViaPoller = true ∧ i ≤ 7 ∨ i = 0) :
    steps i s = .next { s.receive (List.replicate i 0xFF) rest with idleCnt := i } := by
  obtain ⟨hv, hi⟩ | rfl := hi
  · simpa [hcnt] using steps_idleBytes hr (.inr ⟨hp, hv, hb⟩) hx (by omega)
  · rw [List.replicate_zero, receive_nil (rest := rest) hx, steps, ← hcnt]

/-- Settles O29: the idle bytes, three token bytes, and the fourth with the check of the first; eight idle bytes end the
poll. -/
theorem tokenRead : Obligations.TokenRead := by
  refine ⟨fun s i tok a b c rest hr hp hc hb hcnt hx hmode => ?_, fun s rest hr hp hc hb hcnt hv hx => ?_⟩
  · have hi : s.params.drtViaPoller = true ∧ i ≤ 7 ∨ i = 0 :=
      hmode.imp (fun h => ⟨h.1, h.2.1⟩) And.right
    have first (hv : s.params.drtViaPoller = true) : tok ≠ 0xFF := by
      obtain ⟨-, -, h⟩ | ⟨h, -⟩ := hmode
      · exact h
      · simp [hv] at h
    rw [List.append_assoc] at hx
    have idle := steps_tokenIdle hr hp hb hcnt hx hi
    have three := (steps_append (n := 3) idle).trans (steps_tokenRead (rest := c :: rest) hr hp hb first rfl)
    refine ⟨fun ha => ?_, fun ha => ?_⟩
    · refine (steps_snoc three (step_tokenAccepted hr hp rfl rfl rfl ha)).trans ?_
      simp [State.receive, State.setReply, State.setToken, State.beginBusy]
    · refine (steps_snoc three (step_tokenRejected hr hp rfl rfl rfl hc ha)).trans ?_
      simp [State.receive, State.setReply, State.setToken, State.goto]
  · have timeout := steps_idleTimeout (n := 7) hr (.inr ⟨hp, hv, hb⟩) hc hx (by omega)
    simpa [State.receive, hcnt] using timeout

end Sys2Proof.Machine

/-! A host CMD from its frame to its result (R135, R141 to R144, R151), put together from the runs of its parts. -/

namespace Sys2Proof.Machine

/-- The exchange that begins at `s`, its whole response in: `i` idle bytes, the status `st`, and `reply` (R139 to R141);
`got` was received with the frame. -/
def State.responded (got : List Byte) (i : Nat) (st : Byte) (reply rest : List Byte) (s : State) : State :=
  { s.frameSent got (List.replicate i 0xFF ++ st :: reply ++ rest) with
    rx := rest
    trace := (s.frameSent got (List.replicate i 0xFF ++ st :: reply ++ rest)).trace ++
      (List.replicate i 0xFF ++ st :: reply).map (.xfer 0xFF)
    idleCnt := i
    rbuf := st :: reply
    rleft := 0
    status := st
    payload := reply
    error := decide (st &&& 0xFE ≠ 0)
    phase := if st &&& 0xFE = 0 ∧ exchangeHasData s.seq s.reqHasData = true then .dStart else .xRelease }

section cmd

variable {s : State} {got : List Byte} {i : Nat} {st : Byte} {reply rest : List Byte}

theorem responded_trace : (s.responded got i st reply rest).trace =
    s.trace ++ [.cs true] ++ List.zipWith .xfer s.frameBuf.bytes got ++
      (List.replicate i 0xFF ++ st :: reply).map (.xfer 0xFF) := rfl

theorem steps_responded (hr : s.running = true) (hp : s.phase = .xAssert) (hf : s.Framed) (hl : got.length = 6)
    (hi : i ≤ 7) (hst : st ≠ 0xFF) (hlen : reply.length = (exchangeRlen s.seq s.reqRlen).toNat)
    (hx : s.rx = got ++ (List.replicate i 0xFF ++ st :: reply ++ rest)) :
    steps (7 + (i + 1 + reply.length)) s = .next (s.responded got i st reply rest) := by
  have sent := steps_frameSent hr hp hf hl hx
  refine (steps_append sent).trans ?_
  exact readResp.1 (s.frameSent got _) i st reply rest hr rfl rfl rfl rfl hi hst hlen rfl

/-- The release of a host CMD delivers STATUS and the payload, and nothing else of INIT's (R142, R143). -/
theorem cmd_returns (hr : s.running = true) (hp : s.phase = .xRelease) (hq : s.seq = .cmd) :
    ∃ t, step s = .next t ∧ t.phase = .idle ∧ t.cs = false ∧ t.resultDelivered = true ∧ t.result.kind = .ok ∧
      t.result.status = s.status ∧ t.result.payload = s.payload ∧ t.rx = s.rx ∧ t.trace = s.trace ++ [.cs false] ∧
      sameInit s t :=
  ⟨_, step_releaseTo hr hp (continueAfter_target (s := s.setCS false) (.inl hq)),
    rfl, rfl, rfl, rfl, rfl, rfl, rfl, rfl, rfl, rfl, rfl, rfl, rfl⟩

end cmd

/-! The data write, stage by stage: what the later ones need of the state each leaves. -/

/-- `t` is further in the exchange of `s`, its response as it was, `rest` still to be received and `events` made. -/
structure State.Proceeds (events : List Event) (rest : List Byte) (s t : State) : Prop where
  held : t.held = s.held
  status : t.status = s.status
  payload : t.payload = s.payload
  rx : t.rx = rest
  trace : t.trace = s.trace ++ events

theorem sameInit.trans {s t u : State} (h : sameInit s t) (h' : sameInit t u) : sameInit s u := by
  obtain ⟨hstate, hkind, hinfo, hpre, hpost⟩ := h
  obtain ⟨hstate', hkind', hinfo', hpre', hpost'⟩ := h'
  exact ⟨hstate'.trans hstate, hkind'.trans hkind, hinfo'.trans hinfo, hpre'.trans hpre, hpost'.trans hpost⟩

section stages

variable {s t : State} {got : List Byte} {j b : Nat} {tok x y z r : Byte} {rest : List Byte}

theorem State.Proceeds.trans {u : State} {es es' : List Event} {rest' : List Byte} (h : s.Proceeds es rest t)
    (h' : t.Proceeds es' rest' u) : s.Proceeds (es ++ es') rest' u :=
  ⟨h'.held.trans h.held, h'.status.trans h.status, h'.payload.trans h.payload, h'.rx,
    by rw [h'.trace, h.trace, List.append_assoc]⟩

theorem State.Proceeds.running {es : List Event} (h : s.Proceeds es rest t) (hr : s.running = true) :
    t.running = true :=
  (congrArg State.running h.held :).trans hr

/-- The bytes of the data packet of `s` (R145 to R147). -/
def State.packet (s : State) : List Byte :=
  0xFE :: s.dbuf ++ [trailerHigh (Machine.crc16 s.dbuf), trailerLow (Machine.crc16 s.dbuf)]

theorem packet_stage (hr : s.running = true) (hp : s.phase = .dStart) (hne : s.dbuf ≠ [])
    (hl : got.length = s.dbuf.length + 3) (hx : s.rx = got ++ rest) :
    ∃ t, steps (s.dbuf.length + 3) s = .next t ∧ s.Proceeds (List.zipWith .xfer s.packet got) rest t ∧
      t.phase = .dToken ∧ t.rbuf = [] ∧ t.idleCnt = 0 :=
  ⟨_, dataPacketIsTransmitted s got rest hr hp hne hl hx, ⟨rfl, rfl, rfl, rfl, rfl⟩, rfl, rfl, rfl⟩

theorem token_stage (hr : s.running = true) (hp : s.phase = .dToken) (hc : s.cs = true) (hb : s.rbuf = [])
    (hcnt : s.idleCnt = 0) (hv : s.params.drtViaPoller = true) (hj : j ≤ 7) (ha : tok &&& 0x1F = 0x05)
    (hx : s.rx = List.replicate j 0xFF ++ [tok, x, y, z] ++ rest) :
    ∃ t, steps (j + 4) s = .next t ∧
      s.Proceeds ((List.replicate j 0xFF ++ [tok, x, y, z]).map (.xfer 0xFF)) rest t ∧ t.phase = .dBusy ∧
      t.busyCnt = 0 := by
  have notIdle : tok ≠ 0xFF := by rintro rfl; cases ha
  exact ⟨_, (tokenRead.1 s j tok x y z rest hr hp hc hb hcnt hx (.inl ⟨hv, hj, notIdle⟩)).1 ha,
    ⟨rfl, rfl, rfl, rfl, rfl⟩, rfl, rfl⟩

theorem busy_stage (hr : s.running = true) (hp : s.phase = .dBusy) (hc : s.cs = true) (hcnt : s.busyCnt = 0)
    (hbound : ∀ n, s.params.busyBound = some n → b < n) (hne : r ≠ 0x00)
    (hx : s.rx = List.replicate b 0x00 ++ r :: rest) :
    ∃ t, steps (b + 1) s = .next t ∧
      s.Proceeds (List.replicate b (.xfer 0xFF 0x00) ++ [.xfer 0xFF r]) rest t ∧ t.phase = .xRelease :=
  ⟨_, (busyWait s b rest hr hp hc hcnt).1 r hne hx hbound, ⟨rfl, rfl, rfl, rfl, List.append_assoc ..⟩, rfl⟩

end stages

/-- Settles O32: without a data write the whole response goes straight to the release. -/
theorem cmdWithoutDataWrite : Obligations.CmdWithoutDataWrite := by
  intro s got i st reply rest hI hr hp hq hl hi hst hlen hx hno
  have framed : s.Framed := hI.frame (by rw [hp]; rfl)
  have ends : ¬ (st &&& 0xFE = 0 ∧ exchangeHasData s.seq s.reqHasData = true) := by
    rintro ⟨herr, hdata⟩
    rw [hq] at hdata
    exact hno.elim (fun h => by simp [exchangeHasData, h] at hdata) (absurd herr)
  have response := steps_responded hr hp framed hl hi hst (by rw [hlen, hq]; rfl)
    (rest := rest) (by rw [hx]; simp)
  obtain ⟨t, hstep, hidle, hcs, hd, hk, hs, hpay, hrx, ht, hinit⟩ :=
    cmd_returns (s := s.responded got i st reply rest) hr (if_neg ends) hq
  refine ⟨t, ?_, hidle, hcs, hd, hk, hs, hpay, hrx, ht.trans ?_, hinit⟩
  · rw [show 9 + i + reply.length = 7 + (i + 1 + reply.length) + 1 by omega]
    exact steps_snoc response hstep
  · rfl

/-- Settles O33: the response goes to the data packet, and that through an accepted token and the busy wait to the
release. -/
theorem cmdWithDataWrite : Obligations.CmdWithDataWrite := by
  intro s got got2 i j b st tok x y z r reply rest hI hr hp hq hdata hv hl hl2 hi hj hbound hst ha hne hlen hx
  have framed : s.Framed := hI.frame (by rw [hp]; rfl)
  have hst' : st ≠ 0xFF ∧ st &&& 0xFE = 0 := by obtain rfl | rfl := hst <;> decide
  have operation : s.reqOp = .cmd := by rw [← hI.op (by rw [hp]; nofun), hq]; rfl
  have filled : s.dbuf ≠ [] := hI.commandData (by rw [hp]; nofun) (.inl operation) hdata
  have writes : st &&& 0xFE = 0 ∧ exchangeHasData s.seq s.reqHasData = true := ⟨hst'.2, by rw [hq]; exact hdata⟩
  have response := steps_responded hr hp framed hl hi hst'.1 (by rw [hlen, hq]; rfl)
    (rest := got2 ++ (List.replicate j 0xFF ++ [tok, x, y, z] ++ (List.replicate b 0x00 ++ r :: rest)))
    (by rw [hx]; simp)
  obtain ⟨s₂, hpacket, h₂, hp₂, hb₂, hcnt₂⟩ := packet_stage (s := s.responded got i st reply _) (got := got2)
    hr (if_pos writes) filled hl2 rfl
  obtain ⟨s₃, htoken, h₃, hp₃, hcnt₃⟩ := token_stage (h₂.running hr) hp₂ (congrArg State.cs h₂.held :) hb₂ hcnt₂
    ((congrArg (·.params.drtViaPoller) h₂.held :).trans hv) hj ha h₂.rx
  have h₁₃ := h₂.trans h₃
  obtain ⟨s₄, hbusy, h₄, hp₄⟩ := busy_stage (h₁₃.running hr) hp₃ (congrArg State.cs h₁₃.held :) hcnt₃
    (fun n hn => hbound n ((congrArg (·.params.busyBound) h₁₃.held :).symm.trans hn)) hne h₃.rx
  have h₁₄ := h₁₃.trans h₄
  obtain ⟨t, hrelease, hidle, hcs, hd, hk, hs, hpay, hrx, ht, hinit⟩ :=
    cmd_returns (h₁₄.running hr) hp₄ ((congrArg State.seq h₁₄.held :).trans hq)
  have run := steps_snoc ((steps_append ((steps_append ((steps_append response).trans hpacket)).trans htoken)).trans
    hbusy) hrelease
  refine ⟨t, run, hidle, hcs, hd, hk, hs.trans h₁₄.status, hpay.trans h₁₄.payload, hrx.trans h₄.rx, ?_, ?_⟩
  · rw [ht, h₁₄.trace, responded_trace]
    simp only [List.append_assoc]
    rfl
  · exact sameInit.trans (sameInit_of_held (s := s.responded got i st reply _) h₁₄.held) hinit

end Sys2Proof.Machine

/-! The step and the slot it reads (R30, R31), and what each row of the table does in every state. -/

namespace Sys2Proof.Machine

/-- Settles O9: nothing is fetched at IDLE without a request, and a stalled transfer is waited for. -/
theorem waitingChangesNothing : Obligations.WaitingChangesNothing :=
  ⟨fun _ hr hp h => step_noRequest hr hp h, fun _ hr hs hp => step_waiting hr (by simp [State.waiting, hs, hp])⟩

section fetch

variable {s : State} {i : Instr}

theorem step_fetched (hr : s.running = true) (h : fetch s = .instr i) : step s = exec i s := by
  rw [step_running hr, h]

theorem fetch_request {r : Request} {rest : List Request} (hp : s.phase = .idle) (hport : s.hostPort = r :: rest)
    (hd : decode .hostPort (.request r) = .ok i) : fetch s = .instr i := by
  simp only [fetch, hp, hport, hd, fetchedOr]

theorem fetch_frame (hp : s.phase = .xAssert) (hd : decode (.frame s.seq.own) (.frame s.frameBuf) = .ok i) :
    fetch s = .instr i := by
  simp only [fetch, hp, hd]

theorem fetch_poll (hp : s.phase = .xPoll) (hd : decode .response (.byte s.rxByte) = .ok i) :
    fetch s = .instr i := by
  simp only [fetch, hp, hd, fetchedOr]

theorem fetch_start (hp : s.phase = .dStart) (hd : decode .packetStart (.byte 0xFE) = .ok i) :
    fetch s = .instr i := by
  simp only [fetch, hp, Config.startToken, hd, fetchedOr]

theorem fetch_opByte {b : Byte} {rest : List Byte} (hp : s.phase = .dData) (hq : s.seq = .lockCmd42)
    (h0 : s.dptr = 0) (hb : s.dbuf = b :: rest) (hd : decode (.opByte s.params.opBytes) (.byte b) = .ok i) :
    fetch s = .instr i := by
  simp only [fetch, hp, hq, h0, hb, and_self, if_true, hd, fetchedOr]

theorem fetch_tokenIdle (hp : s.phase = .dToken) (h : s.tokenIdle = true) : fetch s = .instr .idleByte := by
  simp only [fetch, hp, h, if_true]

theorem fetch_token {t : Byte} {rest : List Byte} (hp : s.phase = .dToken) (hb : s.rbuf = t :: rest)
    (hl : s.rleft ≤ 1) (hd : decode .token (.byte t) = .ok i) : fetch s = .instr i := by
  have read : s.tokenIdle = false := by simp [State.tokenIdle, hb]
  simp [fetch, hp, read, hb, hl, hd, fetchedOr]

theorem fetch_busy (hp : s.phase = .dBusy) (hd : decode .busy (.byte s.rxByte) = .ok i) : fetch s = .instr i := by
  simp only [fetch, hp, hd, fetchedOr]

end fetch

/-- Settles O10: in each slot the word's instruction is the one fetched. -/
theorem stepRunsTheDecodedInstruction : Obligations.StepRunsTheDecodedInstruction := by
  intro s i hr
  refine ⟨fun r rest hp hport hd => step_fetched hr (fetch_request hp hport hd),
    fun hp hd => step_fetched hr (fetch_frame hp hd), fun hp hd => step_fetched hr (fetch_poll hp hd),
    fun hp hd => step_fetched hr (fetch_start hp hd),
    fun b rest hp hq h0 hb hd => step_fetched hr (fetch_opByte hp hq h0 hb hd), fun hp hv hb hx hd => ?_,
    fun t rest hp hb hl hd => step_fetched hr (fetch_token hp hb hl hd),
    fun hp hd => step_fetched hr (fetch_busy hp hd)⟩
  have idle : decode .response (.byte s.rxByte) = .ok .idleByte := by rw [hx]; rfl
  obtain rfl : Instr.idleByte = i := Except.ok.inj (idle.symm.trans hd)
  exact step_fetched hr (fetch_tokenIdle hp (by simp [State.tokenIdle, hv, hb, hx, Config.idleByte]))

/-! The frame rows (R71, R81). -/

/-- Settles O11: the rows build R81's fixed frames. -/
theorem fixedFrameRowsBegin : Obligations.FixedFrameRowsBegin := by
  intro s
  obtain ⟨cmd0, acmd13, cmd42, cmd55, cmd58⟩ := fixed_frames
  simp only [exec, execCmd0, execCmd58, execCmd55, execCmd42, execAcmd13, cmd0, acmd13, cmd42, cmd55, cmd58]
  exact ⟨rfl, rfl, rfl, rfl, rfl⟩

theorem commandByte_eq_append : ∀ id : BitVec 6, commandByte id = (0b01 : BitVec 2) ++ id := by decide

theorem crcField_eq_append : ∀ k : BitVec 7, crcField k = k ++ (1 : BitVec 1) := by decide

theorem assembleFrame_eq (id : BitVec 6) (arg : Word) (k : BitVec 7) :
    assembleFrame id arg k = ⟨(0b01 : BitVec 2) ++ id, arg.extractLsb' 24 8, arg.extractLsb' 16 8,
      arg.extractLsb' 8 8, arg.extractLsb' 0 8, k ++ (1 : BitVec 1)⟩ := by
  rw [assembleFrame, commandByte_eq_append, crcField_eq_append]

theorem assembleFrame_cmd8 (hi : BitVec 24) (k : BitVec 7) :
    assembleFrame 8 (hi ++ (0x1A : Byte)) k = ⟨0x48, hi.extractLsb' 16 8, hi.extractLsb' 8 8, hi.extractLsb' 0 8, 0x1A,
      k ++ (1 : BitVec 1)⟩ := by
  have high (n : Nat) (h : 8 ≤ n) : (hi ++ (0x1A : Byte)).extractLsb' n 8 = hi.extractLsb' (n - 8) 8 :=
    BitVec.extractLsb'_append_eq_of_le h
  have low : (hi ++ (0x1A : Byte)).extractLsb' 0 8 = 0x1A :=
    (BitVec.extractLsb'_append_eq_of_add_le (Nat.le_refl 8)).trans (by decide)
  rw [assembleFrame_eq, high 24 (by decide), high 16 (by decide), high 8 (by decide), low]
  rfl

/-- Settles O12: the rows assemble the frame of their operands. -/
theorem operandFrameRowsBegin : Obligations.OperandFrameRowsBegin := by
  intro s id arg hi k
  rw [exec, exec, exec, exec, execCmd, execCmd8, execAcmd41, execCmd16, assembleFrame_cmd8, assembleFrame_eq,
    assembleFrame_eq, assembleFrame_eq]
  exact ⟨rfl, rfl, rfl, rfl⟩

/-! The rows of the received bytes (R120, R126, R140, R149). -/

/-- Settles O13: the response is complete with the status alone, or `responseLen` bytes follow. -/
theorem statusRow : Obligations.StatusRow := by
  intro s b
  refine ⟨fun h => ?_, fun h => ?_⟩
  · have alone : s.statusReceived b = ((s.xferAs Config.fill b).setReply [b] 0).responseDone [b] :=
      if_pos (by rw [h]; rfl)
    rw [exec, execStatus, alone, responseDone_cons]
    rfl
  · have more : s.statusReceived b = ((s.xferAs Config.fill b).setReply [b] s.xRlen.toNat).goto .xCollect :=
      if_neg fun h0 => h (BitVec.eq_of_toNat_eq h0)
    rw [exec, execStatus, more]
    rfl

/-- Settles O14: an idle byte below the eighth is counted, and the eighth raises the timeout. -/
theorem idleByteRow : Obligations.IdleByteRow := by
  intro s hc
  refine ⟨fun h => ?_, fun h => ?_⟩
  · rw [exec, execIdleByte, countIdle_below (s := s.xferAs _ _) h]
    rfl
  · rw [exec, execIdleByte, countIdle_last (s := s.xferAs _ _) h hc, State.bumpIdle, State.xferAs_idleCnt, h]
    rfl

/-- Settles O15: a busy byte without a bound, below it, and at it. -/
theorem busyByteRow : Obligations.BusyByteRow := by
  intro s hc
  refine ⟨fun hb => ?_, fun n hb h => ?_, fun n hb h => ?_⟩
  · rw [exec, execBusyByte, countBusy_unbounded (s := s.xferAs _ _) hb]
    rfl
  · rw [exec, execBusyByte, countBusy_below (s := s.xferAs _ _) hb h]
    rfl
  · rw [exec, execBusyByte, countBusy_last (s := s.xferAs _ _) hb h hc, State.bumpBusy, State.xferAs_busyCnt, h]
    rfl

/-- Settles O16: the row is `tokenAccept`, every register of which the statement names. -/
theorem drtAcceptRow : Obligations.DrtAcceptRow :=
  fun _ _ => rfl

/-! The rows of the data packet (R145, R146, R181). -/

theorem beginTrailer_empty {s : State} (h : s.dbuf = []) :
    s.beginTrailer = { s with crc16 := 0x0000, phase := .dCrc 0 } := by
  rw [State.beginTrailer, h]
  rfl

/-- Settles O17: the payload follows from index 0, or, of an empty DBUF, its trailer. -/
theorem startTokenRow : Obligations.StartTokenRow := by
  intro s
  refine ⟨fun h => ?_, fun h => ?_⟩
  · have more : ((s.xfer 0xFE).setDptr 0).afterPayloadByte = ((s.xfer 0xFE).setDptr 0).goto .dData :=
      afterPayloadByte_more (List.length_pos_iff.mpr h)
    exact congrArg _ more
  · have last : ((s.xfer 0xFE).setDptr 0).afterPayloadByte = ((s.xfer 0xFE).setDptr 0).beginTrailer :=
      afterPayloadByte_last (by simp [State.setDptr, h])
    exact congrArg _ (last.trans (beginTrailer_empty h))

section opByte

variable {s : State} (op : LockOp)

theorem sendOpByte_more (h : s.dbuf.tail ≠ []) : s.sendOpByte op =
    { s.xfer (op.byte s.params.opBytes) with
      dbuf := op.byte s.params.opBytes :: s.dbuf.tail, dptr := 1, phase := .dData } := by
  have more : 1 < (op.byte s.params.opBytes :: s.dbuf.tail).length := by
    simpa using List.length_pos_iff.mpr h
  exact afterPayloadByte_more more

theorem sendOpByte_last (h : s.dbuf.tail = []) : s.sendOpByte op =
    { s.xfer (op.byte s.params.opBytes) with
      dbuf := [op.byte s.params.opBytes], dptr := 1, crc16 := crc16 [op.byte s.params.opBytes], phase := .dCrc 0 } := by
  have block : s.setBlockByte (op.byte s.params.opBytes) = { s with dbuf := [op.byte s.params.opBytes] } := by
    rw [State.setBlockByte, h]
  rw [State.sendOpByte, block]
  exact afterPayloadByte_last (Nat.lt_irrefl 1)

end opByte

/-- Settles O18: the five rows are `sendOpByte` of their operations. -/
theorem opByteRows : Obligations.OpByteRows := by
  intro s i b hi
  have row : ∃ op : LockOp, exec i s = .next (s.sendOpByte op) ∧ op.byte s.params.opBytes = b := by
    simp only [List.mem_cons, Prod.mk.injEq, List.not_mem_nil, or_false] at hi
    obtain ⟨rfl, rfl⟩ | ⟨rfl, rfl⟩ | ⟨rfl, rfl⟩ | ⟨rfl, rfl⟩ | ⟨rfl, rfl⟩ := hi
    · exact ⟨.unlock, rfl, rfl⟩
    · exact ⟨.setPassword, rfl, rfl⟩
    · exact ⟨.clearPassword, rfl, rfl⟩
    · exact ⟨.lockNow, rfl, rfl⟩
    · exact ⟨.forceErase, rfl, rfl⟩
  obtain ⟨op, hrow, rfl⟩ := row
  exact ⟨fun h => hrow.trans (congrArg _ (sendOpByte_more op h)),
    fun h => hrow.trans (congrArg _ (sendOpByte_last op h))⟩

/-! The host's reads (R34). -/

theorem readResult_idle {s : State} (hp : s.phase = .idle) : hostRead .result s =
    if s.resultDelivered then .ok (.result s.result) else .error .noResultDelivered := if_pos hp

/-- Settles O55: each register's read by whether it holds a value. -/
theorem hostReads : Obligations.HostReads := by
  intro s
  have captured {o : Option (List Byte)} {v : List Byte} (h : o = some v) : readOcr o = .ok (.bytes v) := by rw [h]; rfl
  have uncaptured {o : Option (List Byte)} (h : o = none) : readOcr o = .error .ocrNotCaptured := by rw [h]; rfl
  exact ⟨rfl, rfl, rfl, fun _ => captured, uncaptured, fun _ => captured, uncaptured, fun h => ⟨if_pos h, if_pos h⟩,
    fun h => ⟨if_neg h, if_neg h⟩, fun hp h => (readResult_idle hp).trans (if_pos h),
    fun hp h => (readResult_idle hp).trans (if_neg (by simp [h])), fun hp => if_neg hp⟩

end Sys2Proof.Machine

/-! The acceptance of the host's requests (R25, R135, R153, R160, R180), and what follows the remaining exchanges of
INIT and LOCKUNLOCK (R166 to R170, R186 to R188). -/

namespace Sys2Proof.Machine

section acceptance

variable {s : State} {id : Byte} {arg rlen : Word} {data : Option (List Byte)}

theorem acceptCommand_valid (op : HostOp) (q : Seq) (hid : id.toNat ≤ 63)
    (hr : ∀ c, s.params.rbufCap = some c → rlen.toNat + 1 ≤ c)
    (hd : ∀ d, data = some d → d ≠ [] ∧ ∀ c, s.params.dbufCap = some c → d.length ≤ c) :
    s.acceptCommand op q id arg rlen data = (s.takeRequest.latchCommand op id arg rlen data).prepare q :=
  if_pos (commandValid_iff.mpr ⟨hid, hr, hd⟩)

end acceptance

/-- Settles O19: the request is latched, and the frame is its own. -/
theorem hostCmdAccepted : Obligations.HostCmdAccepted := by
  intro s id arg rlen data hid hr hd
  rw [exec, execHostCmd, acceptCommand_valid .cmd .cmd hid hr hd, prepare_of_frame (q := .cmd) rfl, BitVec.ofNat_toNat]
  rfl

/-- Settles O20: the request is latched, and the frame is CMD55's. -/
theorem hostAcmdAccepted : Obligations.HostAcmdAccepted := by
  intro s id arg rlen data hid hr hd
  obtain ⟨-, -, -, cmd55, -⟩ := fixed_frames
  rw [exec, execHostAcmd, acceptCommand_valid .acmd .acmdPrefix hid hr hd, prepare_of_frame (q := .acmdPrefix) cmd55,
    BitVec.ofNat_toNat]
  rfl

/-- Settles O22: INIT's entry, with CMD0's frame. -/
theorem hostInitAccepted : Obligations.HostInitAccepted := by
  intro s
  obtain ⟨cmd0, -⟩ := fixed_frames
  rw [exec, execHostInit, prepare_of_frame (q := .initCmd0) cmd0]
  rfl

theorem blockLength_passwordBlock (p : Config.Params) (op : LockOp) (old new : List Byte) :
    blockLength (passwordBlock p op old new) = BitVec.ofNat 32 (2 + old.length + new.length) := by
  rw [blockLength, passwordBlock_length]

/-- Settles O23: the block is assembled, and CMD16's frame announces its length. -/
theorem hostLockunlockAccepted : Obligations.HostLockunlockAccepted := by
  intro s op old new hlen hcap
  have announces : exchangeArg .lockCmd16 (s.takeRequest.latchLock op old new).reqArg
      (s.takeRequest.latchLock op old new).params (s.takeRequest.latchLock op old new).dbuf =
        BitVec.ofNat 32 (2 + old.length + new.length) := blockLength_passwordBlock ..
  rw [hostLockunlock_named, if_pos (passwordsValid_iff.mpr ⟨hlen, hcap⟩),
    prepare_of_frame (q := .lockCmd16) (congrArg (buildFrame 16) announces)]
  rfl

/-! What follows the exchange. -/

section follows

variable {s : State}

theorem continueAfter_initCmd58Pre (h : s.seq = .initCmd58Pre) :
    s.continueAfter = ((s.captureOcrPre s.payload).setRetry 0).prepare .initCmd55 := by
  simp only [State.continueAfter, h]

theorem continueAfter_initCmd58Post (h : s.seq = .initCmd58Post) :
    s.continueAfter = ((s.captureOcrPost s.payload).setInit .ready).deliverInitOk := by
  simp only [State.continueAfter, h]

theorem continueAfter_lockCmd42 (h : s.seq = .lockCmd42) : s.continueAfter = s.prepare .lockCmd55 := by
  simp only [State.continueAfter, h]

theorem continueAfter_lockAcmd13 (h : s.seq = .lockAcmd13) : s.continueAfter = s.deliverOk s.status [] := by
  simp only [State.continueAfter, h]

section unrejected

variable (h : s.params.acmdCheckPrefix = false ∨ s.status &&& 0xFE = 0)
include h

/-- CMD55's status is discarded, or has no error bit (R153, R154). -/
theorem status_discarded : ¬ s.prefixRejected = true := by
  rw [prefixRejected_iff]
  rintro ⟨hcheck, herr⟩
  exact h.elim (fun hoff => by simp [hoff] at hcheck) herr

theorem continueAfter_initCmd55_passed (hq : s.seq = .initCmd55) : s.continueAfter = s.prepare .initAcmd41 := by
  simp only [State.continueAfter, hq]
  exact if_neg (status_discarded h)

theorem continueAfter_lockCmd55_passed (hq : s.seq = .lockCmd55) : s.continueAfter = s.prepare .lockAcmd13 := by
  simp only [State.continueAfter, hq]
  exact if_neg (status_discarded h)

end unrejected

section rejected

variable (hcheck : s.params.acmdCheckPrefix = true) (herr : s.status &&& 0xFE ≠ 0)
include hcheck herr

theorem continueAfter_initCmd55_rejected (hq : s.seq = .initCmd55) : s.continueAfter = s.afterAcmd41 := by
  simp only [State.continueAfter, hq]
  exact if_pos (prefixRejected_iff.mpr ⟨hcheck, herr⟩)

theorem continueAfter_lockCmd55_rejected (hq : s.seq = .lockCmd55) : s.continueAfter = s.deliverOk s.status [] := by
  simp only [State.continueAfter, hq]
  exact if_pos (prefixRejected_iff.mpr ⟨hcheck, herr⟩)

end rejected

end follows

/-- Settles O38: the first payload is captured and CMD55's frame prepared, the second captured and INIT ended. -/
theorem initOcrReads : Obligations.InitOcrReads := by
  intro s hr hp
  obtain ⟨-, -, -, cmd55, -⟩ := fixed_frames
  refine ⟨fun hq => ?_, fun hq => ?_⟩
  · rw [step_releaseTo hr hp (continueAfter_initCmd58Pre (s := s.setCS false) hq),
      prepare_of_frame (q := .initCmd55) cmd55]
    rfl
  · exact ⟨_, step_releaseTo hr hp (continueAfter_initCmd58Post (s := s.setCS false) hq), rfl, rfl⟩

/-- Settles O40: CMD41's frame follows, or the iteration ends as after an ACMD41 with the same status. -/
theorem initPrefix : Obligations.InitPrefix := by
  intro s hr hp hq ho
  obtain ⟨-, -, -, cmd55, cmd58⟩ := fixed_frames
  have rejected (hcheck : s.params.acmdCheckPrefix = true) (herr : s.status &&& 0xFE ≠ 0) :
      step s = .next (s.setCS false).afterAcmd41 :=
    step_releaseTo hr hp (continueAfter_initCmd55_rejected (s := s.setCS false) hcheck herr hq)
  refine ⟨fun h => ?_, fun hcheck herr h => ?_, fun hcheck herr h hn => ?_, fun hcheck herr h hn => ?_⟩
  · rw [step_releaseTo hr hp (continueAfter_initCmd55_passed (s := s.setCS false) h hq),
      prepare_of_frame (q := .initAcmd41) rfl]
    rfl
  · rw [rejected hcheck herr, afterAcmd41_ready (s := s.setCS false) h, prepare_of_frame (q := .initCmd58Post) cmd58]
    rfl
  · rw [rejected hcheck herr, afterAcmd41_again (s := s.setCS false) h hn, prepare_of_frame (q := .initCmd55) cmd55,
      ← hq]
    rfl
  · have follows := rejected hcheck herr
    rw [afterAcmd41_last (s := s.setCS false) h hn] at follows
    exact step_raise_init follows rfl ho

/-- Settles O42: CMD55's and CMD13's frames follow, and the return has the last status read. -/
theorem lockConfirmation : Obligations.LockConfirmation := by
  intro s hr hp
  obtain ⟨-, acmd13, -, cmd55, -⟩ := fixed_frames
  refine ⟨fun hq => ?_, fun hq h => ?_, fun hq hcheck herr => ?_, fun hq => ?_⟩
  · rw [step_releaseTo hr hp (continueAfter_lockCmd42 (s := s.setCS false) hq),
      prepare_of_frame (q := .lockCmd55) cmd55]
    rfl
  · rw [step_releaseTo hr hp (continueAfter_lockCmd55_passed (s := s.setCS false) h hq),
      prepare_of_frame (q := .lockAcmd13) acmd13]
    rfl
  · have ends := step_releaseTo hr hp (continueAfter_lockCmd55_rejected (s := s.setCS false) hcheck herr hq)
    exact ⟨_, ends, rfl, rfl, rfl, rfl⟩
  · exact ⟨_, step_releaseTo hr hp (continueAfter_lockAcmd13 (s := s.setCS false) hq), rfl, rfl, rfl, rfl⟩

end Sys2Proof.Machine
